-- ==== Sys2Proof/Word.lean ====
section
/-! DEFINITION. The words of the block (R10, R90): bytes, 6-bit symbols and the 4-bit values symbols stand for. Sizes and
times are natural numbers (R10, R131, D21, D38), so they have no word type. -/

namespace Sys2Proof

/-- A byte: 8 bits, bit 7 the most significant (R10). -/
abbrev Byte := BitVec 8

/-- A symbol, the format SYM6 (R90, R91): 6 bits. -/
abbrev Sym := BitVec 6

/-- A nibble: the 4-bit value a codeword stands for (R14, R91). -/
abbrev Nibble := BitVec 4

/-- CODEBOOK as data (R92): the codeword of value `v` stands at index `v`. -/
abbrev Codebook := List Sym

end Sys2Proof
end

