-- ==== Sys2Proof/Machine/Params.lean ====
section
/-! DEFINITION. The parameters the source fixes (R8) and the two that the spec decides (R9: CODEBOOK, HEADER_WINDOW).
They stand under `Machine/` so that a repair can mend a value; no operation can write one (R79). -/

namespace Sys2Proof.Params

/-- FIFO_CAPACITY (R8, R61). -/
abbrev fifoCapacity : Nat := 64

/-- HIGH_WATER (R8, R184): ReadData drains everything above this occupancy. -/
abbrev highWater : Nat := 48

/-- NOISE_DRAIN_THRESHOLD (R8, R148). -/
abbrev noiseDrainThreshold : Nat := 32

/-- WITHHELD (R8, R185): the bytes drain priority 3 leaves behind. -/
abbrev withheld : Nat := 1

/-- PREAMBLE_C (R8, R97). -/
abbrev preambleC : Byte := 0x54#8

/-- MARK_BLOCK_A (R8, R97). -/
abbrev markBlockA : Byte := 0xCD#8

/-- MARK_BLOCK_B (R8, R97). -/
abbrev markBlockB : Byte := 0x3D#8

/-- HEADER_WINDOW (R9, R163). -/
abbrev headerWindow : Nat := 3

/-- QUEUE_CAPACITY (R8, R254). -/
abbrev queueCapacity : Nat := 3

/-- POLL_PERIOD_MS (R8, R251). -/
abbrev pollPeriodMs : Nat := 2

/-- SYNC_TIMEOUT_MS, the spec's default (R8, U1). -/
abbrev syncTimeoutDefault : Nat := 50

/-- FIXED_LEN_CEILING, the spec's default (R8, U2). -/
abbrev fixedLenCeilingDefault : Nat := 256

/-- CODEBOOK (R92): values 0 to 15 in order. Rows 0 and 1 are the source's own; the other 14 are the spec's K rows
(EN 13757-4, G1). PRESUMED by the spec; unsafe where a claim needs a K row (log 13). -/
def codebook : Codebook :=
  [0x16#6, 0x0D#6, 0x0E#6, 0x0B#6, 0x1C#6, 0x19#6, 0x1A#6, 0x13#6,
   0x2C#6, 0x25#6, 0x26#6, 0x23#6, 0x34#6, 0x31#6, 0x32#6, 0x29#6]

end Sys2Proof.Params
end

