-- ==== Sys2Proof/Machine/Types.lean ====
section
/-! DEFINITION. The enumerations of the block and the numbers the spec gives them (R23, R101, R102, R230). -/

namespace Sys2Proof.Machine

/-- AcquisitionState, the register `state` (R22). -/
inductive AcqState
  | initRx | waitForSync | waitForData | readData
deriving DecidableEq, Repr

/-- Detected line mode (R28, R40). -/
inductive Mode
  | unknown | t | c
deriving DecidableEq, Repr

/-- Detected block type (R28, R40). -/
inductive Block
  | unknown | a | b
deriving DecidableEq, Repr

/-- The engine's own record of the length mode it programmed (R27). -/
inductive LengthMode
  | infinite | fixed
deriving DecidableEq, Repr

/-- The length mode the transceiver holds (R42, R205); a fixed length goes to the chip as one byte (R69). -/
inductive ChipLengthMode
  | infinite
  | fixed (n : Byte)
deriving DecidableEq, Repr

/-- The source's error taxonomy, complete (R230). -/
inductive ErrorKind
  | chipUnresponsive | registerMismatch | rxOverflow | syncTimeout
  | frameTooLarge | lineDecodeFailure | unclassifiableHeader | queueFull
deriving DecidableEq, Repr

/-- The four kinds that abort a frame (R236). -/
inductive AbortKind
  | rxOverflow | syncTimeout | frameTooLarge | lineDecodeFailure
deriving DecidableEq, Repr

/-- STATE2 (R23, R101). -/
def AcqState.code : AcqState → BitVec 2
  | .initRx => 0b00#2
  | .waitForSync => 0b01#2
  | .waitForData => 0b10#2
  | .readData => 0b11#2

/-- The state a STATE2 value names; all four values are legal (R23, R104). -/
def stateOfCode (v : BitVec 2) : AcqState :=
  if v = 0b00#2 then .initRx
  else if v = 0b01#2 then .waitForSync
  else if v = 0b10#2 then .waitForData
  else .readData

/-- The number of a mode (R102). -/
def Mode.code : Mode → Nat
  | .unknown => 0
  | .t => 1
  | .c => 2

/-- The number of a block type (R102). -/
def Block.code : Block → Nat
  | .unknown => 0
  | .a => 1
  | .b => 2

/-- The number of a length mode (R102). -/
def LengthMode.code : LengthMode → Nat
  | .infinite => 0
  | .fixed => 1

/-- The number of an error kind, 1 to 8 (R230, D25). -/
def ErrorKind.code : ErrorKind → Nat
  | .chipUnresponsive => 1
  | .registerMismatch => 2
  | .rxOverflow => 3
  | .syncTimeout => 4
  | .frameTooLarge => 5
  | .lineDecodeFailure => 6
  | .unclassifiableHeader => 7
  | .queueFull => 8

/-- An abort's place in the taxonomy (R230, R236). -/
def AbortKind.kind : AbortKind → ErrorKind
  | .rxOverflow => .rxOverflow
  | .syncTimeout => .syncTimeout
  | .frameTooLarge => .frameTooLarge
  | .lineDecodeFailure => .lineDecodeFailure

end Sys2Proof.Machine
end

