-- ==== Sys2Proof/Machine/Operands.lean ====
section
/-! DEFINITION. Every operand form of the block, as pure functions: the bit stream and its symbols (R11, R70 to R73, R94), the
formats PAIR12, GROUP24 and HDR24 (R90, R95, R97), the codebook lookup (R92), DECODE and ENCODE (R120 to R128), the two size
functions (R125, R126), Classify (R165) and DrainSize (R183). -/

namespace Sys2Proof.Machine

/-! ### The bit stream (R11, R70) -/

/-- The 8 bits of a byte, most significant first (R70). -/
def byteBits (b : Byte) : List Bool :=
  [b.getLsbD 7, b.getLsbD 6, b.getLsbD 5, b.getLsbD 4, b.getLsbD 3, b.getLsbD 2, b.getLsbD 1, b.getLsbD 0]

/-- `bitstream(s)` of R11. -/
def bitstream (s : List Byte) : List Bool := s.flatMap byteBits

/-! ### Symbols of a byte sequence (R72, R94) -/

/-- The symbol at bit offset 0 of a byte: `b0[7:2]` (R94, r = 0). -/
def symAt0 (b0 : Byte) : Sym := b0.extractLsb' 2 6

/-- The symbol at bit offset 6: `b0[1:0] ++ b1[7:4]` (R94, r = 6). -/
def symAt6 (b0 b1 : Byte) : Sym := b0.extractLsb' 0 2 ++ b1.extractLsb' 4 4

/-- The symbol at bit offset 4: `b1[3:0] ++ b2[7:6]` (R94, r = 4). -/
def symAt4 (b1 b2 : Byte) : Sym := b1.extractLsb' 0 4 ++ b2.extractLsb' 6 2

/-- The symbol at bit offset 2: `b2[5:0]` (R94, r = 2). -/
def symAt2 (b2 : Byte) : Sym := b2.extractLsb' 0 6

/-- The `(8n) div 6` symbols of a sequence of `n` bytes, in order (R72, R94, R120). Spare bits at the end belong to no
symbol (R73). -/
def symbolsOf : List Byte → List Sym
  | b0 :: b1 :: b2 :: rest => symAt0 b0 :: symAt6 b0 b1 :: symAt4 b1 b2 :: symAt2 b2 :: symbolsOf rest
  | [b0, b1] => [symAt0 b0, symAt6 b0 b1]
  | [b0] => [symAt0 b0]
  | [] => []

/-! ### Bytes of symbols (R90, R95, R96) -/

/-- First byte of a group: symbol 0 and the top of symbol 1 (R95). -/
def packByte0 (a b : Sym) : Byte := a ++ b.extractLsb' 4 2

/-- Second byte of a group: the rest of symbol 1 and the top of symbol 2 (R95). -/
def packByte1 (b c : Sym) : Byte := b.extractLsb' 0 4 ++ c.extractLsb' 2 4

/-- Third byte of a group: the rest of symbol 2 and symbol 3 (R95). -/
def packByte2 (c d : Sym) : Byte := c.extractLsb' 0 2 ++ d

/-- GROUP24 cut into its three bytes, first byte first (R90, R95). -/
def groupBytes (a b c d : Sym) : List Byte := [packByte0 a b, packByte1 b c, packByte2 c d]

/-- Second byte of a tail: the rest of symbol 1 and four zero pad bits (R96, D4). -/
def tailByte1 (b : Sym) : Byte := b.extractLsb' 0 4 ++ 0#4

/-- The PAIR12 of two symbols (R90). -/
def pair12 (hi lo : Sym) : BitVec 12 := hi ++ lo

/-- The HDR24 number of three bytes: `h0` in bits 23 to 16 (R90, R97). -/
def header24 (h0 h1 h2 : Byte) : BitVec 24 := h0 ++ h1 ++ h2

/-! ### The codebook (R91 to R93) -/

/-- The value of symbol `x` in the rows `cb`, the first of which is row `v`. -/
def lookupFrom : Codebook → Nat → Sym → Option Nibble
  | [], _, _ => none
  | c :: cb, v, x => if c = x then some (BitVec.ofNat 4 v) else lookupFrom cb (v + 1) x

/-- CODEBOOK(sym): the 4-bit value of a codeword, none for a symbol that is no codeword (R91, R93). -/
def valueOf (cb : Codebook) (x : Sym) : Option Nibble := lookupFrom cb 0 x

/-- The inverse table, value to codeword (R91, R95). -/
def codewordOf (cb : Codebook) (v : Nibble) : Sym := cb.getD v.toNat 0#6

/-- Is the symbol one of the 16 codewords (R93)? -/
def isCodeword (x : Sym) : Bool := (valueOf Params.codebook x).isSome

/-- The number of 1 bits of a symbol (R92). -/
def symWeight (x : Sym) : Nat :=
  (x.getLsbD 0).toNat + (x.getLsbD 1).toNat + (x.getLsbD 2).toNat +
    (x.getLsbD 3).toNat + (x.getLsbD 4).toNat + (x.getLsbD 5).toNat

/-- All the source guarantees of a codebook (R92, D1): 16 distinct words of weight three, and the two rows it gives. -/
abbrev codebookContract (cb : Codebook) : Prop :=
  cb.length = 16 ∧ cb.Nodup ∧ (∀ x ∈ cb, symWeight x = 3) ∧ cb[0]? = some 0x16#6 ∧ cb[1]? = some 0x0D#6

/-! ### DECODE and ENCODE (R120 to R128) -/

/-- The values of a list of symbols; none as soon as one is no codeword (R122). -/
def valuesOf (cb : Codebook) : List Sym → Option (List Nibble)
  | [] => some []
  | x :: xs =>
    match valueOf cb x, valuesOf cb xs with
    | some v, some vs => some (v :: vs)
    | _, _ => none

/-- Two consecutive values make a byte, the first in the high nibble (R71, R94). -/
def pairUp : List Nibble → List Byte
  | hi :: lo :: rest => (hi ++ lo) :: pairUp rest
  | _ => []

/-- DECODE over any codebook (R120); none is `Fail`. -/
def decodeWith (cb : Codebook) (s : List Byte) : Option (List Byte) :=
  if s.length % 3 = 1 then none else (valuesOf cb (symbolsOf s)).map pairUp

/-- The high nibble of a byte (R71). -/
def hiNibble (b : Byte) : Nibble := b.extractLsb' 4 4

/-- The low nibble of a byte (R71). -/
def loNibble (b : Byte) : Nibble := b.extractLsb' 0 4

/-- ENCODE over any codebook (R128): two bytes to a GROUP24, an odd last byte to two bytes with a zero pad. -/
def encodeWith (cb : Codebook) : List Byte → List Byte
  | d0 :: d1 :: rest =>
    groupBytes (codewordOf cb (hiNibble d0)) (codewordOf cb (loNibble d0))
      (codewordOf cb (hiNibble d1)) (codewordOf cb (loNibble d1)) ++ encodeWith cb rest
  | [d0] =>
    [packByte0 (codewordOf cb (hiNibble d0)) (codewordOf cb (loNibble d0)), tailByte1 (codewordOf cb (loNibble d0))]
  | [] => []

/-- DECODE with the block's CODEBOOK (R120). -/
def lineDecode (s : List Byte) : Option (List Byte) := decodeWith Params.codebook s

/-- ENCODE with the block's CODEBOOK (R128). -/
def lineEncode (d : List Byte) : List Byte := encodeWith Params.codebook d

/-! ### Sizes (R125, R126) -/

/-- ENCODED_SIZE(k) (R125). -/
def encodedSize (k : Nat) : Nat := (3 * k + 1) / 2

/-- ModeTPacketSize(L) (R126). -/
def modeTPacketSize (l : Byte) : Nat := l.toNat + 2 * ((l.toNat + 15) / 16) + 1

/-- The expected total of Mode C Block A (R166, D44). -/
def expectedBlockA (l : Byte) : Nat := 2 + modeTPacketSize l

/-- The expected total of Mode C Block B (R167). -/
def expectedBlockB (l : Byte) : Nat := 2 + 1 + l.toNat

/-- The expected total of Mode T (R168). -/
def expectedModeT (l : Byte) : Nat := encodedSize (modeTPacketSize l)

/-! ### Classify (R165) -/

/-- What a classified header gives: mode, block, length field and expected total (R165). -/
structure Classified where
  mode : Mode
  block : Block
  lengthField : Byte
  expected : Nat
deriving DecidableEq, Repr

/-- Mode C, Block A with length field `l` (R166). -/
def classBlockA (l : Byte) : Classified := ⟨.c, .a, l, expectedBlockA l⟩

/-- Mode C, Block B with length field `l` (R167). -/
def classBlockB (l : Byte) : Classified := ⟨.c, .b, l, expectedBlockB l⟩

/-- Mode T with length field `l`; no block (R168, D15). -/
def classModeT (l : Byte) : Classified := ⟨.t, .unknown, l, expectedModeT l⟩

/-- Classify (R165); none is `Unclassifiable` (R169). -/
def classify (h0 h1 h2 : Byte) : Option Classified :=
  if h0 = Params.preambleC then
    if h1 = Params.markBlockA then some (classBlockA h2)
    else if h1 = Params.markBlockB then some (classBlockB h2)
    else none
  else
    match lineDecode [h0, h1, h2] with
    | some (l :: _) => some (classModeT l)
    | _ => none

/-! ### DrainSize (R183) -/

/-- DrainSize (R183 to R185): high water, then the remainder, then all but the withheld byte. -/
def drainSize (occ rem : Nat) : Nat :=
  if Params.highWater < occ then occ
  else if rem ≤ occ then rem
  else occ - Params.withheld

end Sys2Proof.Machine
end

