-- ==== Sys2Proof/Config.lean ====
section
/-! DEFINITION. What one instance of the block is constructed with (R8, R9, R270, R272): the two parameters the source calls
defaults, the OPEN ones, the host's, and the carrier frequency. They are plain data that State carries and no step writes, so a
statement over every state holds for every value of them (log 12). Below them stand the free values: constants with no
body, which nothing can evaluate. -/

namespace Sys2Proof

/-- The configuration supplied at construction (R270). -/
structure Config where
  /-- SYNC_TIMEOUT_MS (R8, R161). -/
  syncTimeoutMs : Nat
  /-- FIXED_LEN_CEILING (R8, R171). At most 256, since a fixed length below it is sent as one byte (R69; log 36). -/
  fixedLenCeiling : Fin 257
  /-- FIFO_THR_INITIAL, OPEN (R9, D18). -/
  fifoThrInitial : Nat
  /-- FIFO_THR_READ, OPEN (R9, D18). -/
  fifoThrRead : Nat
  /-- RX_CONFIRM_POLLS, OPEN (R9, D19). -/
  rxConfirmPolls : Nat
  /-- BUFFER_CAP, OPEN (R9, D26). -/
  bufferCap : Nat
  /-- IDLE_WAIT in milliseconds, the host's (R8, U8). -/
  idleWaitMs : Nat
  /-- The platform capability `has_interrupt_capability` (R201, R251). -/
  hasInterrupt : Bool
  /-- The carrier frequency (R270, R272, R274), in the unit of `crystal` (log 33). -/
  carrier : Nat
  /-- The crystal frequency of the transceiver (R274; log 33). -/
  crystal : Nat
deriving DecidableEq, Repr

namespace Config

/-- The bounds R9 and D18 put on the OPEN thresholds; the idle wait is above the poll period (U8); the frequency word fits 24 bits
(R274). -/
abbrev wf (c : Config) : Prop :=
  Params.headerWindow ≤ c.fifoThrInitial ∧ c.fifoThrInitial ≤ Params.fifoCapacity ∧
    1 ≤ c.fifoThrRead ∧ c.fifoThrRead ≤ c.fifoThrInitial ∧
    Params.pollPeriodMs < c.idleWaitMs ∧
    2 * c.carrier * 2 ^ 16 + c.crystal < 2 ^ 24 * (2 * c.crystal)

/-- The spec's defaults (R8) and, for the OPEN parameters, the values its test vectors use (95_test_vectors.md).
DESIGN CHOICE: the OPEN values and the two frequencies, in kHz; unsafe, no statement rests on them (logs 12, 33). -/
def standard : Config where
  syncTimeoutMs := Params.syncTimeoutDefault
  fixedLenCeiling := ⟨Params.fixedLenCeilingDefault, by decide⟩
  fifoThrInitial := 4
  fifoThrRead := 1
  rxConfirmPolls := 0
  bufferCap := 512
  idleWaitMs := 60000
  hasInterrupt := false
  carrier := 868950
  crystal := 26000

/-- FREE VALUE: does a chip-state byte show the receive state (R143, R145)? The source gives no value (N7, U6). Only the number of
confirmation reads and a log line depend on it (log 14). Safe. -/
opaque showsReceive : Byte → Bool

/-- FREE VALUE: what a read of `expected` gives where it is None, which no run reaches (R30, U17; log 15). Safe. -/
opaque undefinedSize : Nat → Nat

/-- FREE VALUE: what a read of `syncTime` gives where it is None, which no run reaches (R30, U17; log 15). Safe. -/
opaque undefinedTime : Nat → Nat

end Config

end Sys2Proof
end

