-- ==== Sys2Proof/Syntax.lean ====
section
/-! DEFINITION. The operations of the block, one constructor per row of `opcode_table.json` (R7, R107), the form in which an
operation is presented to be decoded (R90), and the reasons a presented form is no operation (R104). -/

namespace Sys2Proof

/-- The formats of R90, and CALL, which marks the operations invoked by name (R107). -/
inductive Format
  | sym6 | pair12 | group24 | hdr24 | state2 | call
deriving DecidableEq, Repr

/-- The operations: 64 symbol rows, 5 header rows, POLL in each of the four states, and 4 operations called by name (R107). -/
inductive Instr
  /-- INV_00: the symbol 0x00 (R93). -/
  | inv00
  /-- INV_01: the symbol 0x01 (R93). -/
  | inv01
  /-- INV_02: the symbol 0x02 (R93). -/
  | inv02
  /-- INV_03: the symbol 0x03 (R93). -/
  | inv03
  /-- INV_04: the symbol 0x04 (R93). -/
  | inv04
  /-- INV_05: the symbol 0x05 (R93). -/
  | inv05
  /-- INV_06: the symbol 0x06 (R93). -/
  | inv06
  /-- INV_07: the symbol 0x07 (R93). -/
  | inv07
  /-- INV_08: the symbol 0x08 (R93). -/
  | inv08
  /-- INV_09: the symbol 0x09 (R93). -/
  | inv09
  /-- INV_0A: the symbol 0x0A (R93). -/
  | inv0A
  /-- SYM_3: the symbol 0x0B (R92). -/
  | sym3
  /-- INV_0C: the symbol 0x0C (R93). -/
  | inv0C
  /-- SYM_1: the symbol 0x0D (R92). -/
  | sym1
  /-- SYM_2: the symbol 0x0E (R92). -/
  | sym2
  /-- INV_0F: the symbol 0x0F (R93). -/
  | inv0F
  /-- INV_10: the symbol 0x10 (R93). -/
  | inv10
  /-- INV_11: the symbol 0x11 (R93). -/
  | inv11
  /-- INV_12: the symbol 0x12 (R93). -/
  | inv12
  /-- SYM_7: the symbol 0x13 (R92). -/
  | sym7
  /-- INV_14: the symbol 0x14 (R93). -/
  | inv14
  /-- INV_15: the symbol 0x15 (R93). -/
  | inv15
  /-- SYM_0: the symbol 0x16 (R92). -/
  | sym0
  /-- INV_17: the symbol 0x17 (R93). -/
  | inv17
  /-- INV_18: the symbol 0x18 (R93). -/
  | inv18
  /-- SYM_5: the symbol 0x19 (R92). -/
  | sym5
  /-- SYM_6: the symbol 0x1A (R92). -/
  | sym6
  /-- INV_1B: the symbol 0x1B (R93). -/
  | inv1B
  /-- SYM_4: the symbol 0x1C (R92). -/
  | sym4
  /-- INV_1D: the symbol 0x1D (R93). -/
  | inv1D
  /-- INV_1E: the symbol 0x1E (R93). -/
  | inv1E
  /-- INV_1F: the symbol 0x1F (R93). -/
  | inv1F
  /-- INV_20: the symbol 0x20 (R93). -/
  | inv20
  /-- INV_21: the symbol 0x21 (R93). -/
  | inv21
  /-- INV_22: the symbol 0x22 (R93). -/
  | inv22
  /-- SYM_B: the symbol 0x23 (R92). -/
  | symB
  /-- INV_24: the symbol 0x24 (R93). -/
  | inv24
  /-- SYM_9: the symbol 0x25 (R92). -/
  | sym9
  /-- SYM_A: the symbol 0x26 (R92). -/
  | symA
  /-- INV_27: the symbol 0x27 (R93). -/
  | inv27
  /-- INV_28: the symbol 0x28 (R93). -/
  | inv28
  /-- SYM_F: the symbol 0x29 (R92). -/
  | symF
  /-- INV_2A: the symbol 0x2A (R93). -/
  | inv2A
  /-- INV_2B: the symbol 0x2B (R93). -/
  | inv2B
  /-- SYM_8: the symbol 0x2C (R92). -/
  | sym8
  /-- INV_2D: the symbol 0x2D (R93). -/
  | inv2D
  /-- INV_2E: the symbol 0x2E (R93). -/
  | inv2E
  /-- INV_2F: the symbol 0x2F (R93). -/
  | inv2F
  /-- INV_30: the symbol 0x30 (R93). -/
  | inv30
  /-- SYM_D: the symbol 0x31 (R92). -/
  | symD
  /-- SYM_E: the symbol 0x32 (R92). -/
  | symE
  /-- INV_33: the symbol 0x33 (R93). -/
  | inv33
  /-- SYM_C: the symbol 0x34 (R92). -/
  | symC
  /-- INV_35: the symbol 0x35 (R93). -/
  | inv35
  /-- INV_36: the symbol 0x36 (R93). -/
  | inv36
  /-- INV_37: the symbol 0x37 (R93). -/
  | inv37
  /-- INV_38: the symbol 0x38 (R93). -/
  | inv38
  /-- INV_39: the symbol 0x39 (R93). -/
  | inv39
  /-- INV_3A: the symbol 0x3A (R93). -/
  | inv3A
  /-- INV_3B: the symbol 0x3B (R93). -/
  | inv3B
  /-- INV_3C: the symbol 0x3C (R93). -/
  | inv3C
  /-- INV_3D: the symbol 0x3D (R93). -/
  | inv3D
  /-- INV_3E: the symbol 0x3E (R93). -/
  | inv3E
  /-- INV_3F: the symbol 0x3F (R93). -/
  | inv3F
  /-- HDR_C_A (R97, R166): `54 CD L`. -/
  | hdrCA (l : Byte)
  /-- HDR_C_B (R97, R167): `54 3D L`. -/
  | hdrCB (l : Byte)
  /-- HDR_C_INVALID (R97, R169): `54 h1 h2` with another second byte. -/
  | hdrCInvalid (h1 h2 : Byte)
  /-- HDR_T (R97, R168): four codewords, first byte not `54`. -/
  | hdrT (a b c d : Sym)
  /-- HDR_UNCLASSIFIABLE (R97, R169): first byte not `54`, some symbol no codeword. -/
  | hdrUnclassifiable (a b c d : Sym)
  /-- POLL.InitRx (R101, R143). -/
  | pollInitRx
  /-- POLL.WaitForSync (R101, R147). -/
  | pollWaitForSync
  /-- POLL.WaitForData (R101, R160). -/
  | pollWaitForData
  /-- POLL.ReadData (R101, R180). -/
  | pollReadData
  /-- DECODE with its operand (R120). -/
  | decode (s : List Byte)
  /-- ENCODED_SIZE with its operand (R125). -/
  | encodedSize (k : Nat)
  /-- MODE_T_PACKET_SIZE with its operand (R126). -/
  | modeTPacketSize (l : Byte)
  /-- ENCODE with its operand (R128). -/
  | encode (d : List Byte)
deriving DecidableEq, Repr

/-- The names of the CALL rows (R107): "nothing selects them but their name". -/
inductive CallName
  | decode | encodedSize | modeTPacketSize | encode
deriving DecidableEq, Repr

/-- The operand of a CALL, passed by value (R60, R120, R125, R126, R128). -/
inductive Operand
  | bytes (s : List Byte)
  | size (k : Nat)
  | byte (l : Byte)
deriving DecidableEq, Repr

/-- What is presented to be decoded: a pattern of `width` bits read as one number with bit 0 the least significant (R90), or a
call by name (R107; log 4). -/
inductive Encoded
  | bits (width value : Nat)
  | call (name : CallName) (operand : Operand)
deriving DecidableEq, Repr

/-- Why a presented form is no operation. -/
inductive DecodeError
  /-- No format of the table has this width (R90). -/
  | noSuchWidth (width : Nat)
  /-- The number needs more bits than the format has. -/
  | valueTooWide (width value : Nat)
  /-- The named operation takes another kind of operand. -/
  | wrongOperand (name : CallName)
deriving DecidableEq, Repr

/-- The format of an operation's row (R107). -/
def Instr.format : Instr → Format
  | .inv00 => .sym6
  | .inv01 => .sym6
  | .inv02 => .sym6
  | .inv03 => .sym6
  | .inv04 => .sym6
  | .inv05 => .sym6
  | .inv06 => .sym6
  | .inv07 => .sym6
  | .inv08 => .sym6
  | .inv09 => .sym6
  | .inv0A => .sym6
  | .sym3 => .sym6
  | .inv0C => .sym6
  | .sym1 => .sym6
  | .sym2 => .sym6
  | .inv0F => .sym6
  | .inv10 => .sym6
  | .inv11 => .sym6
  | .inv12 => .sym6
  | .sym7 => .sym6
  | .inv14 => .sym6
  | .inv15 => .sym6
  | .sym0 => .sym6
  | .inv17 => .sym6
  | .inv18 => .sym6
  | .sym5 => .sym6
  | .sym6 => .sym6
  | .inv1B => .sym6
  | .sym4 => .sym6
  | .inv1D => .sym6
  | .inv1E => .sym6
  | .inv1F => .sym6
  | .inv20 => .sym6
  | .inv21 => .sym6
  | .inv22 => .sym6
  | .symB => .sym6
  | .inv24 => .sym6
  | .sym9 => .sym6
  | .symA => .sym6
  | .inv27 => .sym6
  | .inv28 => .sym6
  | .symF => .sym6
  | .inv2A => .sym6
  | .inv2B => .sym6
  | .sym8 => .sym6
  | .inv2D => .sym6
  | .inv2E => .sym6
  | .inv2F => .sym6
  | .inv30 => .sym6
  | .symD => .sym6
  | .symE => .sym6
  | .inv33 => .sym6
  | .symC => .sym6
  | .inv35 => .sym6
  | .inv36 => .sym6
  | .inv37 => .sym6
  | .inv38 => .sym6
  | .inv39 => .sym6
  | .inv3A => .sym6
  | .inv3B => .sym6
  | .inv3C => .sym6
  | .inv3D => .sym6
  | .inv3E => .sym6
  | .inv3F => .sym6
  | .hdrCA _ => .hdr24
  | .hdrCB _ => .hdr24
  | .hdrCInvalid _ _ => .hdr24
  | .hdrT _ _ _ _ => .hdr24
  | .hdrUnclassifiable _ _ _ _ => .hdr24
  | .pollInitRx => .state2
  | .pollWaitForSync => .state2
  | .pollWaitForData => .state2
  | .pollReadData => .state2
  | .decode _ => .call
  | .encodedSize _ => .call
  | .modeTPacketSize _ => .call
  | .encode _ => .call

/-- Is the operation a poll (R140)? -/
def Instr.isPoll (i : Instr) : Bool := i.format == .state2

/-- Is the operation a header window (R97)? -/
def Instr.isHeader (i : Instr) : Bool := i.format == .hdr24

end Sys2Proof
end

