-- ==== Sys2Proof/WellFormed.lean ====
section
/-! DEFINITION. Which operations are well formed: the header rows R97 tells apart by their bytes. Every other row is
well formed with every operand. -/

namespace Sys2Proof

open Machine

/-- The checks of R97. The second byte of HDR_C_INVALID is neither marker; HDR_T holds four codewords, HDR_UNCLASSIFIABLE does not;
neither begins with the Mode C preamble. -/
def Instr.wf : Instr → Bool
  | .inv00 => true
  | .inv01 => true
  | .inv02 => true
  | .inv03 => true
  | .inv04 => true
  | .inv05 => true
  | .inv06 => true
  | .inv07 => true
  | .inv08 => true
  | .inv09 => true
  | .inv0A => true
  | .sym3 => true
  | .inv0C => true
  | .sym1 => true
  | .sym2 => true
  | .inv0F => true
  | .inv10 => true
  | .inv11 => true
  | .inv12 => true
  | .sym7 => true
  | .inv14 => true
  | .inv15 => true
  | .sym0 => true
  | .inv17 => true
  | .inv18 => true
  | .sym5 => true
  | .sym6 => true
  | .inv1B => true
  | .sym4 => true
  | .inv1D => true
  | .inv1E => true
  | .inv1F => true
  | .inv20 => true
  | .inv21 => true
  | .inv22 => true
  | .symB => true
  | .inv24 => true
  | .sym9 => true
  | .symA => true
  | .inv27 => true
  | .inv28 => true
  | .symF => true
  | .inv2A => true
  | .inv2B => true
  | .sym8 => true
  | .inv2D => true
  | .inv2E => true
  | .inv2F => true
  | .inv30 => true
  | .symD => true
  | .symE => true
  | .inv33 => true
  | .symC => true
  | .inv35 => true
  | .inv36 => true
  | .inv37 => true
  | .inv38 => true
  | .inv39 => true
  | .inv3A => true
  | .inv3B => true
  | .inv3C => true
  | .inv3D => true
  | .inv3E => true
  | .inv3F => true
  | .hdrCA _ => true
  | .hdrCB _ => true
  | .hdrCInvalid h1 _ => h1 != Params.markBlockA && h1 != Params.markBlockB
  | .hdrT a b c d => packByte0 a b != Params.preambleC && (isCodeword a && isCodeword b && isCodeword c && isCodeword d)
  | .hdrUnclassifiable a b c d =>
    packByte0 a b != Params.preambleC && !(isCodeword a && isCodeword b && isCodeword c && isCodeword d)
  | .pollInitRx => true
  | .pollWaitForSync => true
  | .pollWaitForData => true
  | .pollReadData => true
  | .decode _ => true
  | .encodedSize _ => true
  | .modeTPacketSize _ => true
  | .encode _ => true

end Sys2Proof
end

