-- ==== Sys2Proof/Decode.lean ====
section
/-! DEFINITION. The decoder, total on anything presented, and the encoder (R90 to R101, R107). A pattern of 6 bits is a symbol, of
24 bits a header window, of 2 bits a state value; a call is its name and operand. -/

namespace Sys2Proof

open Machine

/-- The row of a SYM6 value (R92, R93, R107). -/
def symbolInstr (x : Sym) : Instr :=
  match x.toNat with
  | 0 => .inv00
  | 1 => .inv01
  | 2 => .inv02
  | 3 => .inv03
  | 4 => .inv04
  | 5 => .inv05
  | 6 => .inv06
  | 7 => .inv07
  | 8 => .inv08
  | 9 => .inv09
  | 10 => .inv0A
  | 11 => .sym3
  | 12 => .inv0C
  | 13 => .sym1
  | 14 => .sym2
  | 15 => .inv0F
  | 16 => .inv10
  | 17 => .inv11
  | 18 => .inv12
  | 19 => .sym7
  | 20 => .inv14
  | 21 => .inv15
  | 22 => .sym0
  | 23 => .inv17
  | 24 => .inv18
  | 25 => .sym5
  | 26 => .sym6
  | 27 => .inv1B
  | 28 => .sym4
  | 29 => .inv1D
  | 30 => .inv1E
  | 31 => .inv1F
  | 32 => .inv20
  | 33 => .inv21
  | 34 => .inv22
  | 35 => .symB
  | 36 => .inv24
  | 37 => .sym9
  | 38 => .symA
  | 39 => .inv27
  | 40 => .inv28
  | 41 => .symF
  | 42 => .inv2A
  | 43 => .inv2B
  | 44 => .sym8
  | 45 => .inv2D
  | 46 => .inv2E
  | 47 => .inv2F
  | 48 => .inv30
  | 49 => .symD
  | 50 => .symE
  | 51 => .inv33
  | 52 => .symC
  | 53 => .inv35
  | 54 => .inv36
  | 55 => .inv37
  | 56 => .inv38
  | 57 => .inv39
  | 58 => .inv3A
  | 59 => .inv3B
  | 60 => .inv3C
  | 61 => .inv3D
  | 62 => .inv3E
  | _ => .inv3F

/-- The row of a STATE2 value (R101): POLL in that state. -/
def pollInstr : AcqState → Instr
  | .initRx => .pollInitRx
  | .waitForSync => .pollWaitForSync
  | .waitForData => .pollWaitForData
  | .readData => .pollReadData

/-- The row of a header window (R97): the patterns in their order, the first that matches decides. -/
def headerInstr (h0 h1 h2 : Byte) : Instr :=
  if h0 = Params.preambleC then
    if h1 = Params.markBlockA then .hdrCA h2
    else if h1 = Params.markBlockB then .hdrCB h2
    else .hdrCInvalid h1 h2
  else
    let a := symAt0 h0
    let b := symAt6 h0 h1
    let c := symAt4 h1 h2
    let d := symAt2 h2
    if isCodeword a && isCodeword b && isCodeword c && isCodeword d then .hdrT a b c d
    else .hdrUnclassifiable a b c d

/-- Byte `k` of a HDR24 number, byte 0 in bits 23 to 16 (R90, R97). -/
def headerByte (v k : Nat) : Byte := BitVec.ofNat 8 (v >>> (16 - 8 * k))

/-- Decode a pattern of bits. -/
def decodeBits (width value : Nat) : Except DecodeError Instr :=
  if width = 6 then
    if value < 2 ^ 6 then .ok (symbolInstr (BitVec.ofNat 6 value)) else .error (.valueTooWide width value)
  else if width = 24 then
    if value < 2 ^ 24 then .ok (headerInstr (headerByte value 0) (headerByte value 1) (headerByte value 2))
    else .error (.valueTooWide width value)
  else if width = 2 then
    if value < 2 ^ 2 then .ok (pollInstr (stateOfCode (BitVec.ofNat 2 value))) else .error (.valueTooWide width value)
  else .error (.noSuchWidth width)

/-- Decode a call by name (R107). -/
def decodeCall : CallName → Operand → Except DecodeError Instr
  | .decode, .bytes s => .ok (.decode s)
  | .encodedSize, .size k => .ok (.encodedSize k)
  | .modeTPacketSize, .byte l => .ok (.modeTPacketSize l)
  | .encode, .bytes d => .ok (.encode d)
  | n, _ => .error (.wrongOperand n)

/-- The decoder. -/
def decode : Encoded → Except DecodeError Instr
  | .bits width value => decodeBits width value
  | .call name operand => decodeCall name operand

/-- The HDR24 word of a window (R97). -/
def headerWord (h0 h1 h2 : Byte) : Encoded := .bits 24 (header24 h0 h1 h2).toNat

/-- The HDR24 word of four symbols (R90, R95). -/
def groupWord (a b c d : Sym) : Encoded := headerWord (packByte0 a b) (packByte1 b c) (packByte2 c d)

/-- The encoder: the presented form of an operation (R92, R93, R97, R101, R107). -/
def encode : Instr → Encoded
  | .inv00 => .bits 6 0x00
  | .inv01 => .bits 6 0x01
  | .inv02 => .bits 6 0x02
  | .inv03 => .bits 6 0x03
  | .inv04 => .bits 6 0x04
  | .inv05 => .bits 6 0x05
  | .inv06 => .bits 6 0x06
  | .inv07 => .bits 6 0x07
  | .inv08 => .bits 6 0x08
  | .inv09 => .bits 6 0x09
  | .inv0A => .bits 6 0x0A
  | .sym3 => .bits 6 0x0B
  | .inv0C => .bits 6 0x0C
  | .sym1 => .bits 6 0x0D
  | .sym2 => .bits 6 0x0E
  | .inv0F => .bits 6 0x0F
  | .inv10 => .bits 6 0x10
  | .inv11 => .bits 6 0x11
  | .inv12 => .bits 6 0x12
  | .sym7 => .bits 6 0x13
  | .inv14 => .bits 6 0x14
  | .inv15 => .bits 6 0x15
  | .sym0 => .bits 6 0x16
  | .inv17 => .bits 6 0x17
  | .inv18 => .bits 6 0x18
  | .sym5 => .bits 6 0x19
  | .sym6 => .bits 6 0x1A
  | .inv1B => .bits 6 0x1B
  | .sym4 => .bits 6 0x1C
  | .inv1D => .bits 6 0x1D
  | .inv1E => .bits 6 0x1E
  | .inv1F => .bits 6 0x1F
  | .inv20 => .bits 6 0x20
  | .inv21 => .bits 6 0x21
  | .inv22 => .bits 6 0x22
  | .symB => .bits 6 0x23
  | .inv24 => .bits 6 0x24
  | .sym9 => .bits 6 0x25
  | .symA => .bits 6 0x26
  | .inv27 => .bits 6 0x27
  | .inv28 => .bits 6 0x28
  | .symF => .bits 6 0x29
  | .inv2A => .bits 6 0x2A
  | .inv2B => .bits 6 0x2B
  | .sym8 => .bits 6 0x2C
  | .inv2D => .bits 6 0x2D
  | .inv2E => .bits 6 0x2E
  | .inv2F => .bits 6 0x2F
  | .inv30 => .bits 6 0x30
  | .symD => .bits 6 0x31
  | .symE => .bits 6 0x32
  | .inv33 => .bits 6 0x33
  | .symC => .bits 6 0x34
  | .inv35 => .bits 6 0x35
  | .inv36 => .bits 6 0x36
  | .inv37 => .bits 6 0x37
  | .inv38 => .bits 6 0x38
  | .inv39 => .bits 6 0x39
  | .inv3A => .bits 6 0x3A
  | .inv3B => .bits 6 0x3B
  | .inv3C => .bits 6 0x3C
  | .inv3D => .bits 6 0x3D
  | .inv3E => .bits 6 0x3E
  | .inv3F => .bits 6 0x3F
  | .hdrCA l => headerWord Params.preambleC Params.markBlockA l
  | .hdrCB l => headerWord Params.preambleC Params.markBlockB l
  | .hdrCInvalid h1 h2 => headerWord Params.preambleC h1 h2
  | .hdrT a b c d => groupWord a b c d
  | .hdrUnclassifiable a b c d => groupWord a b c d
  | .pollInitRx => .bits 2 0b00
  | .pollWaitForSync => .bits 2 0b01
  | .pollWaitForData => .bits 2 0b10
  | .pollReadData => .bits 2 0b11
  | .decode s => .call .decode (.bytes s)
  | .encodedSize k => .call .encodedSize (.size k)
  | .modeTPacketSize l => .call .modeTPacketSize (.byte l)
  | .encode d => .call .encode (.bytes d)

/-- The presented form of a table word of `nbits` bits. In whole bytes both a SYM6 and a STATE2 row take 8 bits: one byte holds a
state value when it is 0 to 3 and a symbol from 4 on. DESIGN CHOICE (log 3); safe: no rule presents a byte. -/
def tableWord (nbits w : Nat) : Encoded :=
  if nbits = 8 then (if w < 4 then .bits 2 w else .bits 6 w) else .bits nbits w

/-- The operation the decoder reads from a table word. The CALL rows have no bits, so no word gives them (R107, log 4). -/
def decodeTableWord (nbits w : Nat) : Option Instr :=
  match decode (tableWord nbits w) with
  | .ok i => some i
  | .error _ => none

end Sys2Proof
end

