-- ==== Sys2Proof/Machine/State.lean ====
section
/-! DEFINITION. The state of the block and of what the engine changes or observes outside it (R20 to R47), as plain data; the
reasons a step can stop; the named updates of a state; and the state after reset (R47, R270, R271). -/

namespace Sys2Proof.Machine

/-- The result a completed frame is delivered as (R40). -/
structure RawFrame where
  bytes : List Byte
  rssi : Int
  timestamp : Nat
  mode : Mode
  block : Block
deriving DecidableEq, Repr

/-- What a `poll()` call returns (R40). -/
inductive PollResult
  | noFrame
  | frameReady (f : RawFrame)
deriving DecidableEq, Repr

/-- The result of a LineDecoder operation, a value and no state of the decoder (R12, R20, R120; log 5). -/
inductive CallResult
  /-- No operation has run. -/
  | none
  /-- `Fail` (R12, R122). -/
  | fail
  /-- The 4-bit value of one codeword (R91). -/
  | nibble (v : Nibble)
  /-- A byte sequence (R120, R128). -/
  | bytes (s : List Byte)
  /-- A size (R125, R126). -/
  | size (n : Nat)
deriving DecidableEq, Repr

/-- One event of the diagnostic side channel (R41, R230, R257, R260). -/
inductive Report
  /-- An error kind (R230). -/
  | kind (k : ErrorKind)
  /-- The log line of an InitRx step whose receive confirmation failed; not an error kind (R143). -/
  | rxNotConfirmed
  /-- A frame matched by no handler (R257). -/
  | unhandled
deriving DecidableEq, Repr

/-- A step of another agent: the environment (R212 to R215), the wake signal (R243) or the consumer context (R256, R257). -/
inductive Event
  /-- ENV_BYTE(b) (R212). -/
  | byte (b : Byte)
  /-- ENV_SYNC(v) (R213). -/
  | sync (v : Bool)
  /-- The THRESHOLD line takes a level (R35, R36). -/
  | threshold (v : Bool)
  /-- ENV_CHIP: the overflow flag takes a value (R214, U19). -/
  | overflow (v : Bool)
  /-- ENV_CHIP: the chip state takes a value (R214). -/
  | chipState (c : Byte)
  /-- ENV_CHIP: RSSI takes a value (R214). -/
  | rssi (r : Int)
  /-- ENV_TIME(d) (R215). -/
  | time (d : Nat)
  /-- The wake signal (R243); it may stand in any schedule, whatever `hasInterrupt` is (log 38). -/
  | wake
  /-- The consumer context pops (R256); `interested` says whether some handler takes the frame (R257). -/
  | consume (interested : Bool)
deriving DecidableEq, Repr

/-- The registers of the FrameAcquisitionEngine (R21), and no others. -/
structure Engine where
  /-- The control state (R22). -/
  state : AcqState
  /-- SessionBuffer (R24). -/
  buf : List Byte
  /-- The received-byte counter (R25). -/
  counter : Nat
  /-- The length byte of the header (R26). -/
  lengthField : Byte
  /-- expectedTotalLength, a number or None (R26). -/
  expected : Option Nat
  /-- The length mode last programmed into the chip (R27). -/
  lengthMode : LengthMode
  /-- Detected line mode (R28). -/
  mode : Mode
  /-- Detected block type (R28). -/
  block : Block
  /-- The time sync was seen, or None (R29). -/
  syncTime : Option Nat
  /-- Set by every InitRx step, read by no rule (R33). -/
  firstInitDone : Bool
deriving DecidableEq, Repr

/-- The three registers of the carrier frequency word, most significant byte first (R274). The source gives neither their addresses
nor their order (log 33). -/
structure FreqRegs where
  high : Byte
  mid : Byte
  low : Byte
deriving DecidableEq, Repr

/-- What the transceiver has received: the model's own count, read by no operation, in which WB3 and WB4 are stated (R216;
log 9). -/
structure Reception where
  /-- SYNC has been asserted since the last ENTER_RX. -/
  synced : Bool
  /-- The bytes that entered the receive FIFO after the sync now received on. -/
  received : Nat
  /-- The bytes that entered it before a sync, in the whole run. -/
  early : Nat
deriving DecidableEq, Repr

/-- The transceiver, the signal lines and the clock (R35, R42). -/
structure Env where
  /-- The hardware receive FIFO, oldest byte first (R42, R61). -/
  rxFifo : List Byte
  /-- The transmit FIFO (R42, R64). -/
  txFifo : List Byte
  /-- The FIFO threshold (R42, R204). -/
  fifoThr : Nat
  /-- The length mode programmed into the chip (R42, R205). -/
  chipLengthMode : ChipLengthMode
  /-- The chip state register (R42, R207). -/
  chipState : Byte
  /-- Receive has been asked for by ENTER_RX (R144, R206). -/
  rxRequested : Bool
  /-- The line behind SYNC (R42, R209). -/
  syncLine : Bool
  /-- The line behind THRESHOLD of a chip that does not keep WB1 (R35, R209). -/
  thresholdLine : Bool
  /-- The flag behind OVERFLOW (R42, R207). -/
  overflowFlag : Bool
  /-- RSSI in dBm (R35, R210). -/
  rssi : Int
  /-- NOW in milliseconds (R35, R210). -/
  now : Nat
  /-- Does this chip keep WB1, THRESHOLD = (len(rxFifo) >= fifoThr) (R216)? A premise where true, nothing where false (log 9). -/
  tracksThreshold : Bool
  /-- Does a flush clear this chip's overflow flag, the effect R202 gives under WB2 (log 9)? -/
  flushClearsOverflow : Bool
  /-- The carrier frequency registers, which setup writes (R272, R274). -/
  freq : FreqRegs
  /-- What has been received (the model's own, log 9). -/
  reception : Reception
deriving DecidableEq, Repr

/-- The host's side (R44, R250 to R257, R273). -/
structure Platform where
  /-- BoundedFrameQueue, oldest first (R44, R254). -/
  queue : List RawFrame
  /-- The pending wake signal: "a count/flag" (R243). -/
  wakeFlag : Bool
  /-- Frames handed to handlers, in order (R257). -/
  dispatched : List RawFrame
  /-- Setup found no chip: no poll ever happens (R272, R273). -/
  setupAborted : Bool
deriving DecidableEq, Repr

/-- The whole machine. -/
structure State where
  /-- The engine's registers (R21). -/
  eng : Engine
  /-- Transceiver, lines, clock (R35, R42). -/
  env : Env
  /-- The host (R250). -/
  plat : Platform
  /-- The configuration of construction (R8, R9, R270). -/
  cfg : Config
  /-- What the last poll returned (R40). -/
  result : PollResult
  /-- What the last LineDecoder operation returned (the model's own, log 5). -/
  callResult : CallResult
  /-- The diagnostic side channel, oldest first (R41; log 20). -/
  reports : List Report
  /-- The operation presented for the next step; none when the host's next act is a poll (the model's own, logs 1 and 2). -/
  request : Option Encoded
  /-- The coming steps of the other agents: one batch is taken before every port operation (R74; the model's own, log 7). -/
  schedule : List (List Event)
  /-- How many free values have been used (the model's own, log 15). -/
  freeCount : Nat
deriving DecidableEq, Repr

/-- Why the machine stops with a fault. -/
inductive Fault
  /-- FifoUnderflow (R63, R235): raised by RD_FIFO of more bytes than the FIFO holds; only the header read of
  `POLL.WaitForData` can raise it. Safe: the model stops, the spec gives the read no meaning. -/
  | fifoUnderflow
  /-- ChipUnresponsive (R230, R273): raised by a step that would poll after setup found no chip. Safe: "no poll ever
  happens". -/
  | chipUnresponsive
deriving DecidableEq, Repr

/-- Why the machine refuses. -/
inductive Refusal
  /-- The operation has no meaning yet; raised by exec's arm alone. Safe. No arm raises it. -/
  | notModelled (mnemonic : String)
  /-- What was presented is no operation of the table; raised by `step` (R104; log 32). Safe. -/
  | undecodable (e : DecodeError)
deriving DecidableEq, Repr

namespace State

/-- Replace the engine registers. -/
def setEng (s : State) (e : Engine) : State := { s with eng := e }

/-- Replace the environment. -/
def setEnv (s : State) (e : Env) : State := { s with env := e }

/-- Replace the host's side. -/
def setPlat (s : State) (p : Platform) : State := { s with plat := p }

/-- Replace the poll result. -/
def setResult (s : State) (r : PollResult) : State := { s with result := r }

/-- Replace the call result. -/
def setCallResult (s : State) (r : CallResult) : State := { s with callResult := r }

/-- Replace the diagnostics. -/
def setReports (s : State) (r : List Report) : State := { s with reports := r }

/-- Replace the presented operation. -/
def setRequest (s : State) (r : Option Encoded) : State := { s with request := r }

/-- Replace the schedule. -/
def setSchedule (s : State) (l : List (List Event)) : State := { s with schedule := l }

/-- Replace the counter of free values. -/
def setFreeCount (s : State) (n : Nat) : State := { s with freeCount := n }

end State

/-- The engine's registers at reset (R47). -/
def Engine.reset : Engine where
  state := .initRx
  buf := []
  counter := 0
  lengthField := 0#8
  expected := none
  lengthMode := .infinite
  mode := .unknown
  block := .unknown
  syncTime := none
  firstInitDone := false

/-- The transceiver and the lines at reset. DESIGN CHOICE throughout (R47 and R271 leave them unspecified): empty FIFOs, lines
low, the lowest legal threshold, frequency registers and clock 0, nothing received, and the RSSI of the spec's programs; unsafe
(logs 9, 10, 11). -/
def Env.reset : Env where
  rxFifo := []
  txFifo := []
  fifoThr := 1
  chipLengthMode := .infinite
  chipState := 0#8
  rxRequested := false
  syncLine := false
  thresholdLine := false
  overflowFlag := false
  rssi := -70
  now := 0
  tracksThreshold := true
  flushClearsOverflow := true
  freq := ⟨0#8, 0#8, 0#8⟩
  reception := ⟨false, 0, 0⟩

/-- The host at reset: the queue is empty (R270); the rest DESIGN CHOICE, unsafe (logs 18, 25, 28). -/
def Platform.reset : Platform where
  queue := []
  wakeFlag := false
  dispatched := []
  setupAborted := false

/-- The machine right after reset (R47, R270): the engine at R47's values, the configuration at the spec's defaults (log 12), nothing
presented, nothing scheduled. -/
def State.reset : State where
  eng := Engine.reset
  env := Env.reset
  plat := Platform.reset
  cfg := Config.standard
  result := .noFrame
  callResult := .none
  reports := []
  request := none
  schedule := []
  freeCount := 0

end Sys2Proof.Machine
end

