-- ==== Sys2Proof/Machine/Flags.lean ====
section
/-! DEFINITION. The engine's flags: `lengthMode`, `mode`, `block`, `firstInitDone` (R27, R28, R33, R34), written together with
the registers their rules write beside them. There are no arithmetic condition codes (R34). -/

namespace Sys2Proof.Machine

/-- The writes of the InitRx step to the engine's registers (R143, R144): every register at its reset value, `firstInitDone` set,
`state` at WaitForSync. -/
def Engine.rearmed : Engine :=
  { Engine.reset with state := .waitForSync, firstInitDone := true }

/-- The writes of a successful classification (R170): `mode`, `block`, `lengthField`, `expected`. -/
def Engine.classified (e : Engine) (c : Classified) : Engine :=
  { e with mode := c.mode, block := c.block, lengthField := c.lengthField, expected := some c.expected }

/-- The engine's record of a Fixed length mode (R27, R171). -/
def Engine.fixedLength (e : Engine) : Engine := { e with lengthMode := .fixed }

/-- A write of the state register (R22). -/
def Engine.goto (e : Engine) (a : AcqState) : Engine := { e with state := a }

/-- Sync seen: `syncTime` and `state` (R149). -/
def Engine.syncSeen (e : Engine) (t : Nat) : Engine := { e with syncTime := some t, state := .waitForData }

/-- AppendBounded with `expected` at `total` (R66): what fits is appended, the surplus is dropped. -/
def Engine.append (e : Engine) (total : Nat) (bytes : List Byte) : Engine :=
  let k := min bytes.length (total - e.counter)
  { e with buf := e.buf ++ bytes.take k, counter := e.counter + k }

/-- Does a frame of this total use Fixed length mode (R171)? -/
def usesFixed (c : Config) (total : Nat) : Bool := decide (total < c.fixedLenCeiling.val)

end Sys2Proof.Machine
end

