-- ==== Sys2Proof/Machine/Ops.lean ====
section
/-! DEFINITION. The shared operations: the turn of the other agents (R74, R211 to R215, R256), the commands and port reads
(R202 to R210), AppendBounded (R66), the abort and the recovery from it (R236, R237), the host's push (R255), and
what the LineDecoder answers. -/

namespace Sys2Proof.Machine

/-! ### Diagnostics (R41) -/

/-- Emit one event on the side channel (R41). -/
def emit (r : Report) (s : State) : State := s.setReports (s.reports ++ [r])

/-! ### Steps of the other agents -/

/-- The count of a byte that enters the receive FIFO (log 9). -/
def Reception.byteIn (r : Reception) : Reception :=
  if r.synced then { r with received := r.received + 1 } else { r with early := r.early + 1 }

/-- The count of a level of SYNC: a rise while the chip is in Infinite mode begins a new reception (log 9). -/
def Reception.syncAt (r : Reception) (was : Bool) (m : ChipLengthMode) (v : Bool) : Reception :=
  if v && !was && m == .infinite then { r with synced := true, received := 0 } else { r with synced := r.synced || v }

/-- ENTER_RX arms the chip for a new reception (log 9). -/
def Reception.arm (r : Reception) (line : Bool) : Reception := { r with synced := line, received := 0 }

/-- ENV_SYNC(v) (R213). -/
def Env.setSync (e : Env) (v : Bool) : Env :=
  { e with syncLine := v, reception := e.reception.syncAt e.syncLine e.chipLengthMode v }

/-- ENV_BYTE(b) (R212). -/
def Env.receive (e : Env) (b : Byte) : Env :=
  if e.rxFifo.length < Params.fifoCapacity then { e with rxFifo := e.rxFifo ++ [b], reception := e.reception.byteIn }
  else { e with overflowFlag := true }

/-- The consumer's pop and dispatch (R256, R257). -/
def consume (interested : Bool) (s : State) : State :=
  match s.plat.queue with
  | [] => s
  | f :: rest =>
    let s := s.setPlat { s.plat with queue := rest }
    if interested then s.setPlat { s.plat with dispatched := s.plat.dispatched ++ [f] }
    else emit .unhandled s

/-- One step of another agent. None of them touches an engine register (R32). -/
def applyEvent (s : State) : Event → State
  | .byte b => s.setEnv (s.env.receive b)
  | .sync v => s.setEnv (s.env.setSync v)
  | .threshold v => s.setEnv { s.env with thresholdLine := v }
  | .overflow v => s.setEnv { s.env with overflowFlag := v }
  | .chipState c => s.setEnv { s.env with chipState := c }
  | .rssi r => s.setEnv { s.env with rssi := r }
  | .time d => s.setEnv { s.env with now := s.env.now + d }
  | .wake => s.setPlat { s.plat with wakeFlag := true }
  | .consume i => consume i s

/-- A finite number of steps of the other agents. -/
def applyEvents (s : State) (es : List Event) : State := es.foldl applyEvent s

/-- The turn of the other agents before a port operation (R74): the next batch of the schedule. -/
def turn (s : State) : State :=
  match s.schedule with
  | [] => s
  | batch :: rest => applyEvents (s.setSchedule rest) batch

/-! ### Port reads (R207, R209, R210): the value at the instant of the sample -/

/-- In(SYNC) (R209). -/
abbrev inSync (s : State) : Bool := s.env.syncLine

/-- In(THRESHOLD) (R209). A chip that keeps WB1 shows the comparison of R216; any other chip its line (log 9). -/
abbrev inThreshold (s : State) : Bool :=
  if s.env.tracksThreshold then decide (s.env.fifoThr ≤ s.env.rxFifo.length) else s.env.thresholdLine

/-- In(OVERFLOW) (R207). -/
abbrev inOverflow (s : State) : Bool := s.env.overflowFlag

/-- In(OCCUPANCY) (R61, R207). -/
abbrev inOccupancy (s : State) : Nat := s.env.rxFifo.length

/-- In(CHIP_STATE) (R207). -/
abbrev inChipState (s : State) : Byte := s.env.chipState

/-- In(NOW) (R210). -/
abbrev inNow (s : State) : Nat := s.env.now

/-- In(RSSI) (R210). -/
abbrev inRssi (s : State) : Int := s.env.rssi

/-! ### Commands (R202 to R206), each after a turn of the other agents -/

/-- Cmd(FLUSH_RX) (R202): the FIFO is emptied, and the flag falls if this chip clears it then (WB2). -/
def cmdFlushRx (s : State) : State :=
  let s := turn s
  s.setEnv { s.env with rxFifo := [], overflowFlag := s.env.overflowFlag && !s.env.flushClearsOverflow }

/-- Cmd(FLUSH_TX) (R203). -/
def cmdFlushTx (s : State) : State :=
  let s := turn s
  s.setEnv { s.env with txFifo := [] }

/-- Cmd(SET_THRESHOLD, v) (R204). -/
def cmdSetThreshold (v : Nat) (s : State) : State :=
  let s := turn s
  s.setEnv { s.env with fifoThr := v }

/-- Cmd(SET_LENGTH_MODE, m) (R205). -/
def cmdSetLengthMode (m : ChipLengthMode) (s : State) : State :=
  let s := turn s
  s.setEnv { s.env with chipLengthMode := m }

/-- Cmd(ENTER_RX) (R206): receive is asked for; what `chipState` shows afterwards is the environment's (R214). -/
def cmdEnterRx (s : State) : State :=
  let s := turn s
  s.setEnv { s.env with rxRequested := true, reception := s.env.reception.arm s.env.syncLine }

/-! ### The FIFO read and the session buffer -/

/-- RD_FIFO(n) (R62, R208): the `n` oldest bytes, removed as one atomic step; none is FifoUnderflow (R63). -/
def rdFifo (n : Nat) (s : State) : Option (List Byte × State) :=
  let s := turn s
  if n ≤ s.env.rxFifo.length then
    some (s.env.rxFifo.take n, s.setEnv { s.env with rxFifo := s.env.rxFifo.drop n })
  else none

/-- MemWrite(BUF, bytes) = AppendBounded (R66) with `expected` at `total`. -/
def appendBounded (total : Nat) (bytes : List Byte) (s : State) : State := s.setEng (s.eng.append total bytes)

/-! ### Ends of a poll -/

/-- `return NoFrame` (R12, R40). -/
def returnNoFrame (s : State) : Host.Outcome State Fault Refusal := .next (s.setResult .noFrame)

/-- `return FrameReady(...)` (R12, R40). -/
def returnFrame (f : RawFrame) (s : State) : Host.Outcome State Fault Refusal := .next (s.setResult (.frameReady f))

/-- TAKING AN EXCEPTION: `raise E` (R236). The diagnostic is emitted, `state` becomes InitRx, the poll returns NoFrame. Nothing is
saved and nothing else is written. -/
def raiseAbort (k : AbortKind) (s : State) : Host.Outcome State Fault Refusal :=
  returnNoFrame ((emit (.kind k.kind) s).setEng (s.eng.goto .initRx))

/-- The confirmation reads of the InitRx step (R143, R145): at most `n` samples of CHIP_STATE, ending at the first that shows the
receive state; a log line if none does. Which byte shows it is free (U6, log 14). -/
def confirmRx : Nat → State → State
  | 0, s => emit .rxNotConfirmed s
  | n + 1, s =>
    let s := turn s
    if Config.showsReceive (inChipState s) then s else confirmRx n s

/-- THE RETURN FROM AN EXCEPTION (R237): there is no such operation but the InitRx step itself, which programs the transceiver and
restores the engine (R143, R144). The port operations stand in the order of the rule (D41). -/
def recover (s : State) : State :=
  let s := cmdFlushRx s
  let s := cmdFlushTx s
  let s := cmdSetThreshold s.cfg.fifoThrInitial s
  let s := cmdSetLengthMode .infinite s
  let s := cmdEnterRx s
  let s := confirmRx s.cfg.rxConfirmPolls s
  s.setEng Engine.rearmed

/-! ### Registers that are None (R30, U17) -/

/-- A read of `expected`: its number, or a free value where it is None (U17, log 15). -/
def readExpected (s : State) : Nat × State :=
  match s.eng.expected with
  | some n => (n, s)
  | none => (Config.undefinedSize s.freeCount, s.setFreeCount (s.freeCount + 1))

/-- A read of `syncTime`: its number, or a free value where it is None (U17, log 15). -/
def readSyncTime (s : State) : Nat × State :=
  match s.eng.syncTime with
  | some n => (n, s)
  | none => (Config.undefinedTime s.freeCount, s.setFreeCount (s.freeCount + 1))

/-! ### The host (R250 to R255) -/

/-- Push (R255): append while the queue has room, else drop the new frame and report QueueFull. -/
def pushFrame (f : RawFrame) (s : State) : State :=
  if s.plat.queue.length < Params.queueCapacity then s.setPlat { s.plat with queue := s.plat.queue ++ [f] }
  else emit (.kind .queueFull) s

/-- What the scheduler does with the result of a poll (R250). -/
def acceptResult (s : State) : State :=
  match s.result with
  | .noFrame => s
  | .frameReady f => pushFrame f s

/-- Idle: the one bit the engine shows the host (R153). -/
def idle (s : State) : Bool := s.eng.state == .waitForSync

/-- The timeout of the host's wait, in milliseconds (R251). -/
def hostWait (s : State) : Nat :=
  if s.cfg.hasInterrupt && idle s then s.cfg.idleWaitMs else Params.pollPeriodMs

/-- The time an event takes (R215). -/
def Event.elapses : Event → Nat
  | .time d => d
  | _ => 0

/-- The host waits while the other agents take the steps of one batch, `left` milliseconds before its timeout. It stops at the wake
signal, or at the timeout, in the middle of an ENV_TIME if need be (R251). What is left: of the wait, 0 once it is over; of the
batch; and the state. DESIGN CHOICE: a wake event counts on a platform without a wake signal too (log 38). -/
def waitBatch : Nat → List Event → State → Nat × List Event × State
  | left, [], s => (left, [], s)
  | 0, es, s => (0, es, s)
  | left + 1, e :: es, s =>
    if e = .wake then (0, es, applyEvent s .wake)
    else if e.elapses < left + 1 then waitBatch (left + 1 - e.elapses) es (applyEvent s e)
    else (0, .time (e.elapses - (left + 1)) :: es, applyEvent s (.time (left + 1)))

/-- The host waits, `left` milliseconds before its timeout, through the batches of a schedule. With no step scheduled any more the
rest of the time passes. -/
def waitSchedule : Nat → List (List Event) → State → State
  | left, [], s => applyEvent (s.setSchedule []) (.time left)
  | left, batch :: rest, s =>
    match waitBatch left batch s with
    | (0, es, t) => t.setSchedule (es :: rest)
    | (n + 1, _, t) => waitSchedule (n + 1) rest t

/-- The wait before a poll (R250, R251): it ends at the timeout or at the wake signal, whichever is first; a wake signal that is
pending when it begins ends it at once (R243). The signal is consumed. DESIGN CHOICE: a pending signal, like a wake event, ends the wait
whatever `hasInterrupt` is; the spec does not say what one does on a platform without a wake signal (log 38). -/
def awaitPoll (s : State) : State :=
  let s := if s.plat.wakeFlag then s else waitSchedule (hostWait s) s.schedule s
  s.setPlat { s.plat with wakeFlag := false }

/-! ### What the LineDecoder answers -/

/-- A result of the LineDecoder; no register is written (R20). -/
def answer (r : CallResult) (s : State) : Host.Outcome State Fault Refusal := .next (s.setCallResult r)

/-- A codeword: its value (R91, R92). -/
def acceptSymbol (v : Nibble) (s : State) : Host.Outcome State Fault Refusal := answer (.nibble v) s

/-- Any other symbol: Fail, for the whole operand (R93, R122). -/
def rejectSymbol (s : State) : Host.Outcome State Fault Refusal := answer .fail s

/-! ### Presenting and fetching an operation (R140; logs 1 to 3) -/

/-- The next operation: what is presented, or else POLL, whose row the state register selects (R140). -/
def fetchWord (s : State) : Encoded :=
  match s.request with
  | some w => w
  | none => .bits 2 s.eng.state.code.toNat

/-- The presented operation is taken; before a poll the host waits (R250). -/
def beginStep (i : Instr) (s : State) : State :=
  let s := s.setRequest none
  if i.isPoll then awaitPoll s else s

/-- After a poll the scheduler accepts its result (R250). -/
def finishStep (i : Instr) : Host.Outcome State Fault Refusal → Host.Outcome State Fault Refusal
  | .next t => .next (if i.isPoll then acceptResult t else t)
  | .fault f => .fault f
  | .refused r => .refused r

/-- The engine registers with `state` at `a`, and with a number where R30 says that a poll in `a` finds one (log 22). -/
def Engine.enter (e : Engine) (now : Nat) (a : AcqState) : Engine :=
  match a with
  | .initRx => e.goto .initRx
  | .waitForSync => e.goto .waitForSync
  | .waitForData => { e with state := .waitForData, syncTime := some (e.syncTime.getD now) }
  | .readData =>
    { e with
        state := .readData
        syncTime := some (e.syncTime.getD now)
        expected := some (e.expected.getD (e.counter + 1)) }

/-- Present a form: a state value goes to the state register, anything else to the request (logs 1, 2, 22). -/
def present (w : Encoded) (s : State) : State :=
  match w with
  | .bits 2 v =>
    if v < 4 then (s.setRequest none).setEng (s.eng.enter s.env.now (stateOfCode (BitVec.ofNat 2 v)))
    else s.setRequest (some (.bits 2 v))
  | w => s.setRequest (some w)

end Sys2Proof.Machine
end

