-- ==== Sys2Proof/Machine/Headers.lean ====
section
/-! DEFINITION. The header family (R97, R165 to R172): what the engine does with a header window once it has left the FIFO. A
classified window is accepted (R170 to R172), any other is retried (R169). POLL.WaitForData reaches the same
operations through Classify (log 6). -/

namespace Sys2Proof.Machine

/-- Reprogram the transceiver when the total is below the ceiling (R171), which makes it one byte (R69). -/
def programLength (total : Nat) (s : State) : State :=
  if usesFixed s.cfg total then
    let s := cmdSetLengthMode (.fixed (BitVec.ofNat 8 total)) s
    let s := s.setEng s.eng.fixedLength
    cmdSetThreshold s.cfg.fifoThrRead s
  else s

/-- A classified header `h` (R160, R170 to R172): FrameTooLarge first, before anything is written; then the registers, the append, the
length mode, `state <- ReadData`. -/
def acceptHeader (c : Classified) (h : List Byte) (s : State) : Host.Outcome State Fault Refusal :=
  if s.cfg.bufferCap < c.expected then raiseAbort .frameTooLarge s
  else
    let s := s.setEng (s.eng.classified c)
    let s := appendBounded c.expected h s
    let s := programLength c.expected s
    returnNoFrame (s.setEng (s.eng.goto .readData))

/-- Not classifiable (R169): a diagnostic, no register written, the window is lost. -/
def retryHeader (s : State) : Host.Outcome State Fault Refusal :=
  returnNoFrame (emit (.kind .unclassifiableHeader) s)

/-- The end of the WaitForData step on the header window `h0 h1 h2` (R160, R165). -/
def runHeader (h0 h1 h2 : Byte) (s : State) : Host.Outcome State Fault Refusal :=
  match classify h0 h1 h2 with
  | some c => acceptHeader c [h0, h1, h2] s
  | none => retryHeader s

/-- HDR_C_A: Mode C, Block A (R166). -/
def execHdrCA (l : Byte) (s : State) : Host.Outcome State Fault Refusal :=
  acceptHeader (classBlockA l) [Params.preambleC, Params.markBlockA, l] s

/-- HDR_C_B: Mode C, Block B (R167). -/
def execHdrCB (l : Byte) (s : State) : Host.Outcome State Fault Refusal :=
  acceptHeader (classBlockB l) [Params.preambleC, Params.markBlockB, l] s

/-- HDR_C_INVALID: retry, whatever the two bytes are (R169). -/
def execHdrCInvalid (_h1 _h2 : Byte) (s : State) : Host.Outcome State Fault Refusal := retryHeader s

/-- HDR_T: Mode T, the length field is the first decoded byte (R168). Symbols that are no codewords, which the decoder never
gives here, are not classifiable (log 21). -/
def execHdrT (a b c d : Sym) (s : State) : Host.Outcome State Fault Refusal :=
  match lineDecode (groupBytes a b c d) with
  | some (l :: _) => acceptHeader (classModeT l) (groupBytes a b c d) s
  | _ => retryHeader s

/-- HDR_UNCLASSIFIABLE: retry (R169). -/
def execHdrUnclassifiable (_a _b _c _d : Sym) (s : State) : Host.Outcome State Fault Refusal := retryHeader s

end Sys2Proof.Machine
end

