-- ==== Sys2Proof/Machine/LineDecoder.lean ====
section
/-! DEFINITION. The operations called by name (R107, R120 to R128). None reads or writes a register of the engine; each answers with a
value. -/

namespace Sys2Proof.Machine

/-- DECODE (R120). -/
def execDecode (bs : List Byte) (s : State) : Host.Outcome State Fault Refusal :=
  match lineDecode bs with
  | some out => answer (.bytes out) s
  | none => answer .fail s

/-- ENCODED_SIZE (R125). -/
def execEncodedSize (k : Nat) (s : State) : Host.Outcome State Fault Refusal := answer (.size (encodedSize k)) s

/-- MODE_T_PACKET_SIZE (R126). -/
def execModeTPacketSize (l : Byte) (s : State) : Host.Outcome State Fault Refusal := answer (.size (modeTPacketSize l)) s

/-- ENCODE, the pseudo-operation (R106, R128). -/
def execEncode (bs : List Byte) (s : State) : Host.Outcome State Fault Refusal := answer (.bytes (lineEncode bs)) s

end Sys2Proof.Machine
end

