-- ==== Sys2Proof/Machine/Poll.lean ====
section
/-! DEFINITION. The POLL family: one step of the engine in each of its four states (R140 to R153, R160 to R175, R180 to R194).
Every `turn` is the turn of the other agents before the port operation that follows it (R74). -/

namespace Sys2Proof.Machine

/-! ### WaitForData (R160) -/

/-- The header read (R163) and what follows it. -/
def readHeader (s : State) : Host.Outcome State Fault Refusal :=
  match rdFifo Params.headerWindow s with
  | some ([h0, h1, h2], s) => runHeader h0 h1 h2 s
  | _ => .fault .fifoUnderflow

/-- The WaitForData step (R160): timeout, overflow, threshold, header. -/
def waitForDataStep (s : State) : Host.Outcome State Fault Refusal :=
  let p := readSyncTime s
  let s := turn p.2
  if s.cfg.syncTimeoutMs < inNow s - p.1 then raiseAbort .syncTimeout s
  else
    let s := turn s
    if inOverflow s then raiseAbort .rxOverflow s
    else
      let s := turn s
      if inThreshold s then readHeader s else returnNoFrame s

/-! ### ReadData (R180) -/

/-- The bytes a finished frame is delivered with (R188): `buf` for Mode C, its decode for Mode T. -/
def frameBytes (e : Engine) : Option (List Byte) :=
  if e.mode = .t then lineDecode e.buf else some e.buf

/-- Complete() (R188): the final drain, the RSSI sample, the decode of a Mode T frame, the delivery. -/
def complete (s : State) : Host.Outcome State Fault Refusal :=
  let s := turn s
  let r := inOccupancy s
  match (if 0 < r then rdFifo r s else some ([], s)) with
  | none => .fault .fifoUnderflow
  | some (_, s) =>
    let s := turn s
    let q := inRssi s
    match frameBytes s.eng with
    | none => raiseAbort .lineDecodeFailure s
    | some out =>
      let p := readSyncTime s
      let s := p.2
      returnFrame ⟨out, q, p.1, s.eng.mode, s.eng.block⟩ (s.setEng (s.eng.goto .initRx))

/-- The drain loop (R180) with `expected` at `total`, at most `fuel` iterations. `drainFuel` is always enough (R187, log 19). -/
def drainLoop (total : Nat) : Nat → State → Host.Outcome State Fault Refusal
  | 0, s => returnNoFrame s
  | fuel + 1, s =>
    let s := turn s
    if inOverflow s then raiseAbort .rxOverflow s
    else if s.eng.counter = total then complete s
    else
      let s := turn s
      let n := drainSize (inOccupancy s) (total - s.eng.counter)
      if n = 0 then returnNoFrame s
      else
        match rdFifo n s with
        | none => .fault .fifoUnderflow
        | some (bytes, s) =>
          let s := appendBounded total bytes s
          if s.eng.counter = total then complete s else drainLoop total fuel s

/-- An upper bound of the iterations of one poll: each stores a byte (R187) or, in the states no run reaches, uses up a batch of
the schedule (log 19). -/
def drainFuel (total : Nat) (s : State) : Nat := (total - s.eng.counter) + s.schedule.length + 2

/-- The ReadData step (R180). -/
def readDataStep (s : State) : Host.Outcome State Fault Refusal :=
  let p := readExpected s
  drainLoop p.1 (drainFuel p.1 p.2) p.2

/-! ### The four rows -/

/-- POLL.InitRx (R143). -/
def execPollInitRx (s : State) : Host.Outcome State Fault Refusal := returnNoFrame (recover s)

/-- POLL.WaitForSync (R147): overflow, then sync, which goes on as WaitForData in the same call (R149), then the noise flush (R148). -/
def execPollWaitForSync (s : State) : Host.Outcome State Fault Refusal :=
  let s := turn s
  if inOverflow s then raiseAbort .rxOverflow s
  else
    let s := turn s
    if inSync s then
      let s := turn s
      waitForDataStep (s.setEng (s.eng.syncSeen (inNow s)))
    else
      let s := turn s
      if Params.noiseDrainThreshold < inOccupancy s then returnNoFrame (cmdFlushRx s) else returnNoFrame s

/-- POLL.WaitForData (R160). -/
def execPollWaitForData (s : State) : Host.Outcome State Fault Refusal := waitForDataStep s

/-- POLL.ReadData (R180). -/
def execPollReadData (s : State) : Host.Outcome State Fault Refusal := readDataStep s

end Sys2Proof.Machine
end

