-- ==== Sys2Proof/Machine/Symbols.lean ====
section
/-! DEFINITION. The symbol family: what the LineDecoder does with one symbol (R91 to R93, R120, R122). A codeword gives its 4-bit
value; any other symbol makes the whole decode Fail. One definition per row of the table; none reads or writes a
register of the engine (R20). -/

namespace Sys2Proof.Machine

/-- INV_00: 0x00 is no codeword (R93, R122). -/
def execInv00 (s : State) : Host.Outcome State Fault Refusal := rejectSymbol s

/-- INV_01: 0x01 is no codeword (R93, R122). -/
def execInv01 (s : State) : Host.Outcome State Fault Refusal := rejectSymbol s

/-- INV_02: 0x02 is no codeword (R93, R122). -/
def execInv02 (s : State) : Host.Outcome State Fault Refusal := rejectSymbol s

/-- INV_03: 0x03 is no codeword (R93, R122). -/
def execInv03 (s : State) : Host.Outcome State Fault Refusal := rejectSymbol s

/-- INV_04: 0x04 is no codeword (R93, R122). -/
def execInv04 (s : State) : Host.Outcome State Fault Refusal := rejectSymbol s

/-- INV_05: 0x05 is no codeword (R93, R122). -/
def execInv05 (s : State) : Host.Outcome State Fault Refusal := rejectSymbol s

/-- INV_06: 0x06 is no codeword (R93, R122). -/
def execInv06 (s : State) : Host.Outcome State Fault Refusal := rejectSymbol s

/-- INV_07: 0x07 is no codeword (R93, R122). -/
def execInv07 (s : State) : Host.Outcome State Fault Refusal := rejectSymbol s

/-- INV_08: 0x08 is no codeword (R93, R122). -/
def execInv08 (s : State) : Host.Outcome State Fault Refusal := rejectSymbol s

/-- INV_09: 0x09 is no codeword (R93, R122). -/
def execInv09 (s : State) : Host.Outcome State Fault Refusal := rejectSymbol s

/-- INV_0A: 0x0A is no codeword (R93, R122). -/
def execInv0A (s : State) : Host.Outcome State Fault Refusal := rejectSymbol s

/-- SYM_3: codeword 0x0B, value 0x3 (R92). -/
def execSym3 (s : State) : Host.Outcome State Fault Refusal := acceptSymbol 0x3#4 s

/-- INV_0C: 0x0C is no codeword (R93, R122). -/
def execInv0C (s : State) : Host.Outcome State Fault Refusal := rejectSymbol s

/-- SYM_1: codeword 0x0D, value 0x1 (R92). -/
def execSym1 (s : State) : Host.Outcome State Fault Refusal := acceptSymbol 0x1#4 s

/-- SYM_2: codeword 0x0E, value 0x2 (R92). -/
def execSym2 (s : State) : Host.Outcome State Fault Refusal := acceptSymbol 0x2#4 s

/-- INV_0F: 0x0F is no codeword (R93, R122). -/
def execInv0F (s : State) : Host.Outcome State Fault Refusal := rejectSymbol s

/-- INV_10: 0x10 is no codeword (R93, R122). -/
def execInv10 (s : State) : Host.Outcome State Fault Refusal := rejectSymbol s

/-- INV_11: 0x11 is no codeword (R93, R122). -/
def execInv11 (s : State) : Host.Outcome State Fault Refusal := rejectSymbol s

/-- INV_12: 0x12 is no codeword (R93, R122). -/
def execInv12 (s : State) : Host.Outcome State Fault Refusal := rejectSymbol s

/-- SYM_7: codeword 0x13, value 0x7 (R92). -/
def execSym7 (s : State) : Host.Outcome State Fault Refusal := acceptSymbol 0x7#4 s

/-- INV_14: 0x14 is no codeword (R93, R122). -/
def execInv14 (s : State) : Host.Outcome State Fault Refusal := rejectSymbol s

/-- INV_15: 0x15 is no codeword (R93, R122). -/
def execInv15 (s : State) : Host.Outcome State Fault Refusal := rejectSymbol s

/-- SYM_0: codeword 0x16, value 0x0 (R92). -/
def execSym0 (s : State) : Host.Outcome State Fault Refusal := acceptSymbol 0x0#4 s

/-- INV_17: 0x17 is no codeword (R93, R122). -/
def execInv17 (s : State) : Host.Outcome State Fault Refusal := rejectSymbol s

/-- INV_18: 0x18 is no codeword (R93, R122). -/
def execInv18 (s : State) : Host.Outcome State Fault Refusal := rejectSymbol s

/-- SYM_5: codeword 0x19, value 0x5 (R92). -/
def execSym5 (s : State) : Host.Outcome State Fault Refusal := acceptSymbol 0x5#4 s

/-- SYM_6: codeword 0x1A, value 0x6 (R92). -/
def execSym6 (s : State) : Host.Outcome State Fault Refusal := acceptSymbol 0x6#4 s

/-- INV_1B: 0x1B is no codeword (R93, R122). -/
def execInv1B (s : State) : Host.Outcome State Fault Refusal := rejectSymbol s

/-- SYM_4: codeword 0x1C, value 0x4 (R92). -/
def execSym4 (s : State) : Host.Outcome State Fault Refusal := acceptSymbol 0x4#4 s

/-- INV_1D: 0x1D is no codeword (R93, R122). -/
def execInv1D (s : State) : Host.Outcome State Fault Refusal := rejectSymbol s

/-- INV_1E: 0x1E is no codeword (R93, R122). -/
def execInv1E (s : State) : Host.Outcome State Fault Refusal := rejectSymbol s

/-- INV_1F: 0x1F is no codeword (R93, R122). -/
def execInv1F (s : State) : Host.Outcome State Fault Refusal := rejectSymbol s

/-- INV_20: 0x20 is no codeword (R93, R122). -/
def execInv20 (s : State) : Host.Outcome State Fault Refusal := rejectSymbol s

/-- INV_21: 0x21 is no codeword (R93, R122). -/
def execInv21 (s : State) : Host.Outcome State Fault Refusal := rejectSymbol s

/-- INV_22: 0x22 is no codeword (R93, R122). -/
def execInv22 (s : State) : Host.Outcome State Fault Refusal := rejectSymbol s

/-- SYM_B: codeword 0x23, value 0xB (R92). -/
def execSymB (s : State) : Host.Outcome State Fault Refusal := acceptSymbol 0xB#4 s

/-- INV_24: 0x24 is no codeword (R93, R122). -/
def execInv24 (s : State) : Host.Outcome State Fault Refusal := rejectSymbol s

/-- SYM_9: codeword 0x25, value 0x9 (R92). -/
def execSym9 (s : State) : Host.Outcome State Fault Refusal := acceptSymbol 0x9#4 s

/-- SYM_A: codeword 0x26, value 0xA (R92). -/
def execSymA (s : State) : Host.Outcome State Fault Refusal := acceptSymbol 0xA#4 s

/-- INV_27: 0x27 is no codeword (R93, R122). -/
def execInv27 (s : State) : Host.Outcome State Fault Refusal := rejectSymbol s

/-- INV_28: 0x28 is no codeword (R93, R122). -/
def execInv28 (s : State) : Host.Outcome State Fault Refusal := rejectSymbol s

/-- SYM_F: codeword 0x29, value 0xF (R92). -/
def execSymF (s : State) : Host.Outcome State Fault Refusal := acceptSymbol 0xF#4 s

/-- INV_2A: 0x2A is no codeword (R93, R122). -/
def execInv2A (s : State) : Host.Outcome State Fault Refusal := rejectSymbol s

/-- INV_2B: 0x2B is no codeword (R93, R122). -/
def execInv2B (s : State) : Host.Outcome State Fault Refusal := rejectSymbol s

/-- SYM_8: codeword 0x2C, value 0x8 (R92). -/
def execSym8 (s : State) : Host.Outcome State Fault Refusal := acceptSymbol 0x8#4 s

/-- INV_2D: 0x2D is no codeword (R93, R122). -/
def execInv2D (s : State) : Host.Outcome State Fault Refusal := rejectSymbol s

/-- INV_2E: 0x2E is no codeword (R93, R122). -/
def execInv2E (s : State) : Host.Outcome State Fault Refusal := rejectSymbol s

/-- INV_2F: 0x2F is no codeword (R93, R122). -/
def execInv2F (s : State) : Host.Outcome State Fault Refusal := rejectSymbol s

/-- INV_30: 0x30 is no codeword (R93, R122). -/
def execInv30 (s : State) : Host.Outcome State Fault Refusal := rejectSymbol s

/-- SYM_D: codeword 0x31, value 0xD (R92). -/
def execSymD (s : State) : Host.Outcome State Fault Refusal := acceptSymbol 0xD#4 s

/-- SYM_E: codeword 0x32, value 0xE (R92). -/
def execSymE (s : State) : Host.Outcome State Fault Refusal := acceptSymbol 0xE#4 s

/-- INV_33: 0x33 is no codeword (R93, R122). -/
def execInv33 (s : State) : Host.Outcome State Fault Refusal := rejectSymbol s

/-- SYM_C: codeword 0x34, value 0xC (R92). -/
def execSymC (s : State) : Host.Outcome State Fault Refusal := acceptSymbol 0xC#4 s

/-- INV_35: 0x35 is no codeword (R93, R122). -/
def execInv35 (s : State) : Host.Outcome State Fault Refusal := rejectSymbol s

/-- INV_36: 0x36 is no codeword (R93, R122). -/
def execInv36 (s : State) : Host.Outcome State Fault Refusal := rejectSymbol s

/-- INV_37: 0x37 is no codeword (R93, R122). -/
def execInv37 (s : State) : Host.Outcome State Fault Refusal := rejectSymbol s

/-- INV_38: 0x38 is no codeword (R93, R122). -/
def execInv38 (s : State) : Host.Outcome State Fault Refusal := rejectSymbol s

/-- INV_39: 0x39 is no codeword (R93, R122). -/
def execInv39 (s : State) : Host.Outcome State Fault Refusal := rejectSymbol s

/-- INV_3A: 0x3A is no codeword (R93, R122). -/
def execInv3A (s : State) : Host.Outcome State Fault Refusal := rejectSymbol s

/-- INV_3B: 0x3B is no codeword (R93, R122). -/
def execInv3B (s : State) : Host.Outcome State Fault Refusal := rejectSymbol s

/-- INV_3C: 0x3C is no codeword (R93, R122). -/
def execInv3C (s : State) : Host.Outcome State Fault Refusal := rejectSymbol s

/-- INV_3D: 0x3D is no codeword (R93, R122). -/
def execInv3D (s : State) : Host.Outcome State Fault Refusal := rejectSymbol s

/-- INV_3E: 0x3E is no codeword (R93, R122). -/
def execInv3E (s : State) : Host.Outcome State Fault Refusal := rejectSymbol s

/-- INV_3F: 0x3F is no codeword (R93, R122). -/
def execInv3F (s : State) : Host.Outcome State Fault Refusal := rejectSymbol s

end Sys2Proof.Machine
end

