-- ==== Sys2Proof/Machine/Dispatch.lean ====
section
/-! DEFINITION. The dispatch: one arm per operation. -/

namespace Sys2Proof.Machine

def exec (i : Instr) (s : State) : Host.Outcome State Fault Refusal :=
  match i with
  | .inv00 => Sys2Proof.Machine.execInv00 s
  | .inv01 => Sys2Proof.Machine.execInv01 s
  | .inv02 => Sys2Proof.Machine.execInv02 s
  | .inv03 => Sys2Proof.Machine.execInv03 s
  | .inv04 => Sys2Proof.Machine.execInv04 s
  | .inv05 => Sys2Proof.Machine.execInv05 s
  | .inv06 => Sys2Proof.Machine.execInv06 s
  | .inv07 => Sys2Proof.Machine.execInv07 s
  | .inv08 => Sys2Proof.Machine.execInv08 s
  | .inv09 => Sys2Proof.Machine.execInv09 s
  | .inv0A => Sys2Proof.Machine.execInv0A s
  | .sym3 => Sys2Proof.Machine.execSym3 s
  | .inv0C => Sys2Proof.Machine.execInv0C s
  | .sym1 => Sys2Proof.Machine.execSym1 s
  | .sym2 => Sys2Proof.Machine.execSym2 s
  | .inv0F => Sys2Proof.Machine.execInv0F s
  | .inv10 => Sys2Proof.Machine.execInv10 s
  | .inv11 => Sys2Proof.Machine.execInv11 s
  | .inv12 => Sys2Proof.Machine.execInv12 s
  | .sym7 => Sys2Proof.Machine.execSym7 s
  | .inv14 => Sys2Proof.Machine.execInv14 s
  | .inv15 => Sys2Proof.Machine.execInv15 s
  | .sym0 => Sys2Proof.Machine.execSym0 s
  | .inv17 => Sys2Proof.Machine.execInv17 s
  | .inv18 => Sys2Proof.Machine.execInv18 s
  | .sym5 => Sys2Proof.Machine.execSym5 s
  | .sym6 => Sys2Proof.Machine.execSym6 s
  | .inv1B => Sys2Proof.Machine.execInv1B s
  | .sym4 => Sys2Proof.Machine.execSym4 s
  | .inv1D => Sys2Proof.Machine.execInv1D s
  | .inv1E => Sys2Proof.Machine.execInv1E s
  | .inv1F => Sys2Proof.Machine.execInv1F s
  | .inv20 => Sys2Proof.Machine.execInv20 s
  | .inv21 => Sys2Proof.Machine.execInv21 s
  | .inv22 => Sys2Proof.Machine.execInv22 s
  | .symB => Sys2Proof.Machine.execSymB s
  | .inv24 => Sys2Proof.Machine.execInv24 s
  | .sym9 => Sys2Proof.Machine.execSym9 s
  | .symA => Sys2Proof.Machine.execSymA s
  | .inv27 => Sys2Proof.Machine.execInv27 s
  | .inv28 => Sys2Proof.Machine.execInv28 s
  | .symF => Sys2Proof.Machine.execSymF s
  | .inv2A => Sys2Proof.Machine.execInv2A s
  | .inv2B => Sys2Proof.Machine.execInv2B s
  | .sym8 => Sys2Proof.Machine.execSym8 s
  | .inv2D => Sys2Proof.Machine.execInv2D s
  | .inv2E => Sys2Proof.Machine.execInv2E s
  | .inv2F => Sys2Proof.Machine.execInv2F s
  | .inv30 => Sys2Proof.Machine.execInv30 s
  | .symD => Sys2Proof.Machine.execSymD s
  | .symE => Sys2Proof.Machine.execSymE s
  | .inv33 => Sys2Proof.Machine.execInv33 s
  | .symC => Sys2Proof.Machine.execSymC s
  | .inv35 => Sys2Proof.Machine.execInv35 s
  | .inv36 => Sys2Proof.Machine.execInv36 s
  | .inv37 => Sys2Proof.Machine.execInv37 s
  | .inv38 => Sys2Proof.Machine.execInv38 s
  | .inv39 => Sys2Proof.Machine.execInv39 s
  | .inv3A => Sys2Proof.Machine.execInv3A s
  | .inv3B => Sys2Proof.Machine.execInv3B s
  | .inv3C => Sys2Proof.Machine.execInv3C s
  | .inv3D => Sys2Proof.Machine.execInv3D s
  | .inv3E => Sys2Proof.Machine.execInv3E s
  | .inv3F => Sys2Proof.Machine.execInv3F s
  | .hdrCA l => Sys2Proof.Machine.execHdrCA l s
  | .hdrCB l => Sys2Proof.Machine.execHdrCB l s
  | .hdrCInvalid h1 h2 => Sys2Proof.Machine.execHdrCInvalid h1 h2 s
  | .hdrT a b c d => Sys2Proof.Machine.execHdrT a b c d s
  | .hdrUnclassifiable a b c d => Sys2Proof.Machine.execHdrUnclassifiable a b c d s
  | .pollInitRx => Sys2Proof.Machine.execPollInitRx s
  | .pollWaitForSync => Sys2Proof.Machine.execPollWaitForSync s
  | .pollWaitForData => Sys2Proof.Machine.execPollWaitForData s
  | .pollReadData => Sys2Proof.Machine.execPollReadData s
  | .decode bs => Sys2Proof.Machine.execDecode bs s
  | .encodedSize k => Sys2Proof.Machine.execEncodedSize k s
  | .modeTPacketSize l => Sys2Proof.Machine.execModeTPacketSize l s
  | .encode bs => Sys2Proof.Machine.execEncode bs s

end Sys2Proof.Machine
end

