-- ==== Sys2Proof/Machine/Step.lean ====
section
/-! DEFINITION. One step of the machine: fetch the next operation, decode it, run it; after a poll the scheduler accepts its
result (R140, R250). -/

namespace Sys2Proof.Machine

/-- One step. A poll never happens once setup has aborted (R272, R273), be it the host's next act (R250) or a presented word. -/
def step (s : State) : Host.Outcome State Fault Refusal :=
  match decode (fetchWord s) with
  | .error e => .refused (.undecodable e)
  | .ok i =>
    if i.isPoll ∧ s.plat.setupAborted then .fault .chipUnresponsive
    else finishStep i (exec i (beginStep i s))

/-- `s` with a table word where `step` fetches its next operation (logs 2, 3, 22). -/
def State.withFetchWord (s : State) (nbits w : Nat) : State := present (tableWord nbits w) s

end Sys2Proof.Machine
end

