-- ==== Sys2Proof/Machine/Setup.lean ====
section
/-! DEFINITION. Setup, which runs before the first poll and outside the block (R272 to R274; log 18): the presence check, the RF table's
readback and the carrier frequency registers. No operation of the table calls any of it. -/

namespace Sys2Proof.Machine

/-- The presence check (R272 step 2, R273): a sentinel version byte is ChipUnresponsive, after which no poll ever happens. -/
def setupPresence (sentinel : Bool) (s : State) : State :=
  if sentinel then
    let s := emit (.kind .chipUnresponsive) s
    s.setPlat { s.plat with setupAborted := true }
  else s

/-- The RF table (R272 step 3, R273): a write/readback disagreement is RegisterMismatch, a warning only. -/
def setupRfTable (disagreement : Bool) (s : State) : State :=
  if disagreement then emit (.kind .registerMismatch) s else s

/-- FREQ = round(carrier * 2^16 / crystal), a number of at most 24 bits where the configuration is well formed (R274); a half rounds
up (DESIGN CHOICE, log 34). -/
def freqWord (c : Config) : BitVec 24 := BitVec.ofNat 24 ((2 * c.carrier * 2 ^ 16 + c.crystal) / (2 * c.crystal))

/-- A 24-bit word split over the three frequency registers (R274). -/
def freqBytes (w : BitVec 24) : FreqRegs := ⟨w.extractLsb' 16 8, w.extractLsb' 8 8, w.extractLsb' 0 8⟩

/-- Set the carrier frequency (R272 step 4, R274). -/
def setupFrequency (s : State) : State := s.setEnv { s.env with freq := freqBytes (freqWord s.cfg) }

/-- Setup up to the first poll (R272): "a failed presence check stops the rest"; else the RF table, then the carrier frequency. -/
def setup (sentinel disagreement : Bool) (s : State) : State :=
  if sentinel then setupPresence true s else setupFrequency (setupRfTable disagreement s)

end Sys2Proof.Machine
end

