-- ==== Sys2Proof/Safety.lean ====
section
/-! DEFINITION. What claims are stated in: the form of the byte stores, the invariant of the engine (R25, R28, R30, R131), what a
delivered frame is (R40, R188, R189), and the named assumptions about the transceiver (R216). -/

namespace Sys2Proof.Machine

/-! ### Memory -/

/-- The byte stores have their form: the FIFO holds at most FIFO_CAPACITY bytes (R61) and `len(buf) = counter` (R25). Byte lists are
canonical as they stand: equal contents are equal data. -/
abbrev Memory.wf (s : State) : Prop :=
  s.env.rxFifo.length ≤ Params.fifoCapacity ∧ s.eng.buf.length = s.eng.counter

/-! ### The engine -/

/-- The legal pairs of mode and block after a classification (R28). -/
def legalPair (m : Mode) (k : Block) : Prop :=
  (m = .c ∧ k = .a) ∨ (m = .c ∧ k = .b) ∨ (m = .t ∧ k = .unknown)

/-- The first two symbols of `buf` are the codewords of the length byte `l` (R99, R168). -/
def codedLength (buf : List Byte) (l : Byte) : Prop :=
  ∃ b0 b1 rest, buf = b0 :: b1 :: rest ∧
    valueOf Params.codebook (symAt0 b0) = some (hiNibble l) ∧
    valueOf Params.codebook (symAt6 b0 b1) = some (loNibble l)

/-- What the header of the frame in progress has fixed (R99, R166 to R168): the expected total and the first bytes of `buf`. -/
def headerKept (e : Engine) (total : Nat) : Prop :=
  (e.mode = .c ∧ e.block = .a ∧ total = expectedBlockA e.lengthField ∧
    e.buf.take 3 = [Params.preambleC, Params.markBlockA, e.lengthField]) ∨
  (e.mode = .c ∧ e.block = .b ∧ total = expectedBlockB e.lengthField ∧
    e.buf.take 3 = [Params.preambleC, Params.markBlockB, e.lengthField]) ∨
  (e.mode = .t ∧ e.block = .unknown ∧ total = expectedModeT e.lengthField ∧ codedLength e.buf e.lengthField)

/-- The registers while no frame is in progress (R30, R144). -/
def Engine.clear (e : Engine) : Prop :=
  e.buf = [] ∧ e.counter = 0 ∧ e.lengthField = 0#8 ∧ e.expected = none ∧ e.lengthMode = .infinite ∧
    e.mode = .unknown ∧ e.block = .unknown

/-- The registers in ReadData (R30, R26, R27, R28, R99). -/
def Engine.collecting (c : Config) (e : Engine) : Prop :=
  ∃ total, e.expected = some total ∧ 2 ≤ e.counter ∧ e.counter ≤ total ∧ total ≤ 432 ∧
    legalPair e.mode e.block ∧ e.syncTime.isSome ∧ headerKept e total ∧
    (e.lengthMode = .fixed ↔ total < c.fixedLenCeiling.val)

/-- The table of R30, per state. In InitRx every register but `state` is stale. -/
def Engine.inv (c : Config) (e : Engine) : Prop :=
  match e.state with
  | .initRx => True
  | .waitForSync => e.clear ∧ e.syncTime = none
  | .waitForData => e.clear ∧ e.syncTime.isSome
  | .readData => e.collecting c

/-! ### Frames -/

/-- What every delivered frame is (R28, R99, R188): a legal pair; Mode C carries its marker bytes and as many bytes as its length
byte asks for; Mode T starts with its length byte and has ModeTPacketSize of it. -/
def goodFrame (f : RawFrame) : Prop :=
  (f.mode = .c ∧ f.block = .a ∧ ∃ l rest, f.bytes = Params.preambleC :: Params.markBlockA :: l :: rest ∧
      f.bytes.length = expectedBlockA l) ∨
  (f.mode = .c ∧ f.block = .b ∧ ∃ l rest, f.bytes = Params.preambleC :: Params.markBlockB :: l :: rest ∧
      f.bytes.length = expectedBlockB l) ∨
  (f.mode = .t ∧ f.block = .unknown ∧ ∃ l rest, f.bytes = l :: rest ∧ f.bytes.length = modeTPacketSize l)

/-- A result that carries a frame carries a good one. -/
def goodResult : PollResult → Prop
  | .noFrame => True
  | .frameReady f => goodFrame f

/-! ### Header operations -/

/-- The header operations that classify (R166 to R168): what each gives and the three bytes it stands for. -/
def classifiesAs (i : Instr) (k : Classified) (h : List Byte) : Prop :=
  (∃ l, i = .hdrCA l ∧ k = ⟨.c, .a, l, 2 + modeTPacketSize l⟩ ∧ h = [0x54#8, 0xCD#8, l]) ∨
  (∃ l, i = .hdrCB l ∧ k = ⟨.c, .b, l, 2 + 1 + l.toNat⟩ ∧ h = [0x54#8, 0x3D#8, l]) ∨
  (∃ a b c d l m, i = .hdrT a b c d ∧ lineDecode (groupBytes a b c d) = some [l, m] ∧
    k = ⟨.t, .unknown, l, encodedSize (modeTPacketSize l)⟩ ∧ h = groupBytes a b c d)

/-- Which poll may end where, and with what (R141): the pairs of `state` at entry and at return, and whether the result is a frame. -/
def allowedTransition (a z : AcqState) (r : PollResult) : Prop :=
  match a, z with
  | .initRx, .waitForSync => r = .noFrame
  | .waitForSync, .initRx => r = .noFrame
  | .waitForSync, .waitForSync => r = .noFrame
  | .waitForSync, .waitForData => r = .noFrame
  | .waitForSync, .readData => r = .noFrame
  | .waitForData, .initRx => r = .noFrame
  | .waitForData, .waitForData => r = .noFrame
  | .waitForData, .readData => r = .noFrame
  | .readData, .initRx => True
  | .readData, .readData => r = .noFrame
  | _, _ => False

/-! ### The invariant -/

/-- What is presented fits the state: a header window is met in WaitForData only, and no state value is presented, since POLL
takes it from the register (R140, R175; log 6). -/
def requestFits (s : State) : Prop :=
  ∀ w, s.request = some w → ∀ i, decode w = .ok i →
    i.isPoll = false ∧ (i.isHeader = true → s.eng.state = .waitForData)

/-- The settings of the transceiver agree with the engine (R27, R42, R144, R171, R204, R205): `lengthMode` mirrors the chip's length
mode, whose Fixed length is the expected total of the frame in progress and below the ceiling; the threshold is in its range, and at
its initial value while a header is awaited. -/
def settingsKept (s : State) : Prop :=
  (1 ≤ s.env.fifoThr ∧ s.env.fifoThr ≤ Params.fifoCapacity) ∧
  ((s.eng.state = .waitForSync ∨ s.eng.state = .waitForData) → s.env.fifoThr = s.cfg.fifoThrInitial) ∧
  (s.env.chipLengthMode = .infinite → s.eng.lengthMode = .infinite) ∧
  (∀ n, s.env.chipLengthMode = .fixed n → s.eng.lengthMode = .fixed ∧ 2 ≤ n.toNat ∧ n.toNat < s.cfg.fixedLenCeiling.val ∧
    (s.eng.state = .readData → s.eng.expected = some n.toNat))

/-- The invariant of the machine between two steps. -/
structure Inv (s : State) : Prop where
  /-- R9, R274, U8: the bounds of the configuration. -/
  config : s.cfg.wf
  /-- R25, R61. -/
  memory : Memory.wf s
  /-- R26, R27, R28, R30. -/
  engine : s.eng.inv s.cfg
  /-- R27, R42, R144, R171. -/
  settings : settingsKept s
  /-- R131, R215: the subtraction of times cannot go below zero. -/
  clock : ∀ t, s.eng.syncTime = some t → t ≤ s.env.now
  /-- R254. -/
  queue : s.plat.queue.length ≤ Params.queueCapacity
  /-- R28, R188. -/
  queued : ∀ f ∈ s.plat.queue, goodFrame f
  /-- R28, R188. -/
  delivered : goodResult s.result
  /-- Log 6. -/
  request : requestFits s

/-! ### Named assumptions about the transceiver (R216): premises, part of no step -/

/-- WB1 (R216): the THRESHOLD line is the comparison of `rxFifo` with `fifoThr` at every instant. -/
def WB1 (s : State) : Prop := s.env.tracksThreshold = true

/-- The events that move the overflow flag at will (R214). -/
def Event.movesOverflow : Event → Bool
  | .overflow _ => true
  | _ => false

/-- WB2 (R216): the flag rises only by R212, since no scheduled event moves it, and falls only by FLUSH_RX, which clears it. -/
def WB2 (s : State) : Prop :=
  s.env.flushClearsOverflow = true ∧ ∀ batch ∈ s.schedule, ∀ e ∈ batch, e.movesOverflow = false

/-- The byte an event brings (R212). -/
def Event.arrives : Event → List Byte
  | .byte b => [b]
  | _ => []

/-- The bytes a list of events brings, in order. -/
def arrivals (es : List Event) : List Byte := es.flatMap Event.arrives

/-- How long a list of events takes (R215). -/
def elapsed (es : List Event) : Nat := (es.map Event.elapses).sum

/-- The bytes still to arrive, in order. -/
def bytesToCome (s : State) : List Byte := s.schedule.flatMap arrivals

/-- WB3 (R216), at every instant of the run that led to `s`: no byte has entered the receive FIFO while SYNC had not been asserted since
the last InitRx step. No statement assumes it (R217). -/
def WB3 (s : State) : Prop := s.env.reception.early = 0

/-- WB4 (R216), for the reception in progress: with the chip in Fixed(n), at most `n` bytes have entered the receive FIFO after sync,
those of header windows that were lost included. The count only grows until the chip is armed again, so it speaks
of every instant since that sync. -/
def WB4 (s : State) : Prop := ∀ n, s.env.chipLengthMode = .fixed n → s.env.reception.received ≤ n.toNat

/-- What the engine holds of the frame in progress, stored or in the FIFO, arrived after sync. -/
def heldSinceSync (s : State) : Prop :=
  s.env.reception.synced = true ∧ s.eng.counter + s.env.rxFifo.length ≤ s.env.reception.received

/-- WB5 (R216) with a bound of `n` turns: once receive has been asked for, the chip state shows it. No statement assumes it. -/
def WB5 (n : Nat) (s : State) : Prop :=
  s.env.rxRequested = true → Config.showsReceive s.env.chipState = true ∨
    ∃ c, Config.showsReceive c = true ∧ Event.chipState c ∈ (s.schedule.take n).flatten

/-- Is the event a step of the clock? -/
def Event.ticks : Event → Bool
  | .time _ => true
  | _ => false

/-- Bytes arrive at FILL_RATE, 12.5 a millisecond (R8, R252): from the start, and from every step of the clock, to every later
event, at most 25 bytes in two milliseconds; the half byte of an odd millisecond counts as one (log 37). -/
def atFillRate (es : List Event) : Prop :=
  ∀ before window after, es = before ++ window ++ after → (before = [] ∨ ∃ e rest, window = e :: rest ∧ e.ticks = true) →
    2 * (arrivals window).length ≤ 25 * elapsed window + 1

/-- The events that the step from `s` to `t` has used up; one that the end of the host's wait cut in two is not among them. -/
def eventsTaken (s t : State) : List Event :=
  s.schedule.flatten.take (s.schedule.flatten.length - t.schedule.flatten.length)

/-- WB6 (R216), for the step of a frame from `s` to `t`, which is the host's wait and the poll after it: the bytes arrive at
FILL_RATE, and the poll comes within POLL_PERIOD_MS of the end of the last one. -/
def WB6 (s t : State) : Prop := atFillRate (eventsTaken s t) ∧ t.env.now ≤ s.env.now + Params.pollPeriodMs

/-- A step that keeps to the hardware: it answers a next state (R235: a FifoUnderflow marks a run that is not good). -/
def goodStep (s : State) : Prop := ∃ t, step s = .next t

end Sys2Proof.Machine
end

