-- ==== Sys2Proof/Certificates/Slice0/Obligations.lean ====
section
/-! DEFINITION. The statements for the provers, one `def Obligations.<Name> : Prop` each. OBLIGATIONS.json lists them with the rules
of `spec/` they formalise. -/

open Sys2Proof Sys2Proof.Machine

/-! ### Encoding -/

/-- R90, R92, R93, R97, R101, R107: the presented form of every well-formed operation decodes to that operation. -/
def Obligations.EncodedOperationsDecode : Prop :=
  ∀ i : Instr, i.wf = true → decode (encode i) = .ok i

/-- R90, R97, R107: whatever decodes is the presented form of the operation it decodes to, which is well formed. -/
def Obligations.DecodedFormsEncodeBack : Prop :=
  ∀ (w : Encoded) (i : Instr), decode w = .ok i → encode i = w ∧ i.wf = true

/-- R92, R93, R97, R101: words written out bit by bit from the spec's tables decode to their rows. -/
def Obligations.SpecWordsDecode : Prop :=
  decode (.bits 6 0b010110) = .ok .sym0 ∧ decode (.bits 6 0b001101) = .ok .sym1 ∧
  decode (.bits 6 0b101001) = .ok .symF ∧ decode (.bits 6 0b000111) = .ok .inv07 ∧
  decode (.bits 6 0b111111) = .ok .inv3F ∧
  decode (.bits 24 0b010101001100110100000101) = .ok (.hdrCA 5#8) ∧
  decode (.bits 24 0b010101000011110100001010) = .ok (.hdrCB 10#8) ∧
  decode (.bits 24 0b010101001010101000000101) = .ok (.hdrCInvalid 0xAA#8 5#8) ∧
  decode (.bits 24 0b010110001101010110001101) = .ok (.hdrT 0b010110#6 0b001101#6 0b010110#6 0b001101#6) ∧
  decode (.bits 24 0b010110001101010110001111) =
    .ok (.hdrUnclassifiable 0b010110#6 0b001101#6 0b010110#6 0b001111#6) ∧
  decode (.bits 2 0b00) = .ok .pollInitRx ∧ decode (.bits 2 0b01) = .ok .pollWaitForSync ∧
  decode (.bits 2 0b10) = .ok .pollWaitForData ∧ decode (.bits 2 0b11) = .ok .pollReadData

/-- R97: the five patterns of a header window, in their order; the first that matches decides. -/
def Obligations.HeaderPatternsMatchInOrder : Prop :=
  ∀ h0 h1 h2 : Byte, ∃ i, decode (.bits 24 (h0 ++ h1 ++ h2).toNat) = .ok i ∧
    (h0 = 0x54#8 → h1 = 0xCD#8 → i = .hdrCA h2) ∧
    (h0 = 0x54#8 → h1 = 0x3D#8 → i = .hdrCB h2) ∧
    (h0 = 0x54#8 → h1 ≠ 0xCD#8 → h1 ≠ 0x3D#8 → i = .hdrCInvalid h1 h2) ∧
    (h0 ≠ 0x54#8 → lineDecode [h0, h1, h2] ≠ none → ∃ a b c d, i = .hdrT a b c d ∧
      bitstream [h0, h1, h2] = [a, b, c, d].flatMap fun x =>
        [x.getLsbD 5, x.getLsbD 4, x.getLsbD 3, x.getLsbD 2, x.getLsbD 1, x.getLsbD 0]) ∧
    (h0 ≠ 0x54#8 → lineDecode [h0, h1, h2] = none → ∃ a b c d, i = .hdrUnclassifiable a b c d ∧
      bitstream [h0, h1, h2] = [a, b, c, d].flatMap fun x =>
        [x.getLsbD 5, x.getLsbD 4, x.getLsbD 3, x.getLsbD 2, x.getLsbD 1, x.getLsbD 0])

/-! ### The LineDecoder -/

/-- R92: CODEBOOK is the spec's table and meets the source's contract. Rows 2 to 15 are the spec's K rows (log 13). -/
def Obligations.CodebookIsTheSpecTable : Prop :=
  Params.codebook =
    [0b010110#6, 0b001101#6, 0b001110#6, 0b001011#6, 0b011100#6, 0b011001#6, 0b011010#6, 0b010011#6,
     0b101100#6, 0b100101#6, 0b100110#6, 0b100011#6, 0b110100#6, 0b110001#6, 0b110010#6, 0b101001#6] ∧
  codebookContract Params.codebook ∧
  ∀ v : Nibble, valueOf Params.codebook (codewordOf Params.codebook v) = some v

/-- R93: 48 of the 64 symbols are no codewords: 44 of the wrong weight, and four of weight three. -/
def Obligations.FortyEightSymbolsAreNoCodewords : Prop :=
  (((List.range 64).map (BitVec.ofNat 6)).filter fun x => !isCodeword x).length = 48 ∧
  (((List.range 64).map (BitVec.ofNat 6)).filter fun x => !isCodeword x && symWeight x != 3).length = 44 ∧
  (((List.range 64).map (BitVec.ofNat 6)).filter fun x => !isCodeword x && symWeight x == 3) =
    [0b000111#6, 0b010101#6, 0b101010#6, 0b111000#6]

/-- R127: the four laws, for every codebook that meets the source's contract: round trip, encoded length, one bad symbol fails
everything, and lengths 1, 4, 7, … fail. The block's own codebook is one of them. -/
def Obligations.LineCodeLawsForEveryCodebook : Prop :=
  ∀ cb : Codebook, codebookContract cb →
    (∀ d : List Byte, decodeWith cb (encodeWith cb d) = some d) ∧
    (∀ d : List Byte, (encodeWith cb d).length = encodedSize d.length) ∧
    (∀ (s : List Byte) (x : Sym), x ∈ symbolsOf s → valueOf cb x = none → decodeWith cb s = none) ∧
    (∀ s : List Byte, s.length % 3 = 1 → decodeWith cb s = none)

/-- R124: the length of a successful result, and that ENCODED_SIZE leads back from it. -/
def Obligations.DecodedLengthMatchesEncodedSize : Prop :=
  ∀ s d : List Byte, lineDecode s = some d →
    d.length = 2 * s.length / 3 ∧ encodedSize d.length = s.length

/-- R71: symbol `i` is stream bits `6i` to `6i + 5`, the first its most significant; symbols `2k` and `2k + 1` give byte `k`, the first
in the high nibble. -/
def Obligations.SymbolsAreSlicesOfTheBitStream : Prop :=
  (∀ s : List Byte, (symbolsOf s).length = 8 * s.length / 6) ∧
  (∀ (s : List Byte) (i : Nat) (x : Sym), (symbolsOf s)[i]? = some x →
    ∀ j, j < 6 → (bitstream s)[6 * i + j]? = some (x.getLsbD (5 - j))) ∧
  (∀ (s d : List Byte) (k : Nat) (y : Byte), lineDecode s = some d → d[k]? = some y →
    ∃ hi lo v w, (symbolsOf s)[2 * k]? = some hi ∧ (symbolsOf s)[2 * k + 1]? = some lo ∧
      valueOf Params.codebook hi = some v ∧ valueOf Params.codebook lo = some w ∧
      y.extractLsb' 4 4 = v ∧ y.extractLsb' 0 4 = w)

/-- R120, R122, R123: the operation DECODE answers, for every operand; it fails exactly for a length of 1 modulo 3 or a symbol that is no
codeword, and writes nothing but its answer. The port it answers in is the model's (log 5). -/
def Obligations.DecodeOperationAnswers : Prop :=
  ∀ (bs : List Byte) (s : State),
    ((bs.length % 3 = 1 ∨ ∃ x ∈ symbolsOf bs, isCodeword x = false) →
      exec (.decode bs) s = .next { s with callResult := .fail }) ∧
    (bs.length % 3 ≠ 1 → (∀ x ∈ symbolsOf bs, isCodeword x = true) →
      ∃ out, exec (.decode bs) s = .next { s with callResult := .bytes out } ∧
        out.length = (if bs.length % 3 = 0 then 2 * bs.length / 3 else (2 * bs.length - 1) / 3) ∧
        ∀ k y, out[k]? = some y → ∃ hi lo, (symbolsOf bs)[2 * k]? = some hi ∧ (symbolsOf bs)[2 * k + 1]? = some lo ∧
          valueOf Params.codebook hi = some (y.extractLsb' 4 4) ∧ valueOf Params.codebook lo = some (y.extractLsb' 0 4))

/-- R125, R126: the two size operations answer, for every operand, and write nothing but their answer; ENCODED_SIZE is a multiple of
3 for an even operand and 2 more for an odd one; ModeTPacketSize is odd exactly for an even length byte. The port they answer in is
the model's (log 5). -/
def Obligations.SizeOperationsAnswer : Prop :=
  (∀ (k : Nat) (s : State), exec (.encodedSize k) s = .next { s with callResult := .size ((3 * k + 1) / 2) }) ∧
  (∀ (l : Byte) (s : State), exec (.modeTPacketSize l) s =
    .next { s with callResult := .size (l.toNat + 2 * ((l.toNat + 15) / 16) + 1) }) ∧
  (∀ k : Nat, k % 2 = 0 → encodedSize k % 3 = 0) ∧ (∀ k : Nat, k % 2 = 1 → encodedSize k % 3 = 2) ∧
  (∀ l : Byte, modeTPacketSize l % 2 = 1 ↔ l.toNat % 2 = 0)

/-- R131: the ranges of the packet size and of the three expected totals. -/
def Obligations.ExpectedTotalsStayInRange : Prop :=
  ∀ l : Byte, (1 ≤ modeTPacketSize l ∧ modeTPacketSize l ≤ 288) ∧
    (3 ≤ expectedBlockA l ∧ expectedBlockA l ≤ 290) ∧ (3 ≤ expectedBlockB l ∧ expectedBlockB l ≤ 258) ∧
    (2 ≤ expectedModeT l ∧ expectedModeT l ≤ 432)

/-- R128: the pseudo-operation ENCODE answers with ENCODED_SIZE bytes whose bit stream is the codewords in order and, for an odd
count, four zero bits; it writes nothing but its answer. The port it answers in is the model's (log 5). -/
def Obligations.EncodeOperationAnswers : Prop :=
  ∀ (d : List Byte) (s : State), ∃ out, exec (.encode d) s = .next { s with callResult := .bytes out } ∧
    out.length = (3 * d.length + 1) / 2 ∧
    bitstream out =
      ((d.flatMap fun y => [y.extractLsb' 4 4, y.extractLsb' 0 4]).flatMap fun v : Nibble =>
        let x := codewordOf Params.codebook v
        [x.getLsbD 5, x.getLsbD 4, x.getLsbD 3, x.getLsbD 2, x.getLsbD 1, x.getLsbD 0]) ++
      (if d.length % 2 = 1 then [false, false, false, false] else [])

/-- R92: each of the 16 codeword operations answers with its row's value, in every state, and writes nothing but its answer. That a symbol
row run alone answers is the model's (log 5); rows 2 to F are the spec's K rows (log 13). -/
def Obligations.CodewordOperationsAnswerTheirValue : Prop :=
  ∀ p ∈ [(Instr.sym0, 0x0#4), (.sym1, 0x1#4), (.sym2, 0x2#4), (.sym3, 0x3#4), (.sym4, 0x4#4), (.sym5, 0x5#4),
      (.sym6, 0x6#4), (.sym7, 0x7#4), (.sym8, 0x8#4), (.sym9, 0x9#4), (.symA, 0xA#4), (.symB, 0xB#4),
      (.symC, 0xC#4), (.symD, 0xD#4), (.symE, 0xE#4), (.symF, 0xF#4)],
    ∀ s : State, exec p.1 s = .next { s with callResult := .nibble p.2 }

/-- R93: each of the 48 other symbol operations answers Fail, in every state, and writes nothing but its answer. That a symbol row run
alone answers is the model's (log 5). -/
def Obligations.OtherSymbolOperationsAnswerFail : Prop :=
  ∀ i ∈ [Instr.inv00, .inv01, .inv02, .inv03, .inv04, .inv05, .inv06, .inv07, .inv08, .inv09, .inv0A, .inv0C, .inv0F,
      .inv10, .inv11, .inv12, .inv14, .inv15, .inv17, .inv18, .inv1B, .inv1D, .inv1E, .inv1F, .inv20, .inv21, .inv22,
      .inv24, .inv27, .inv28, .inv2A, .inv2B, .inv2D, .inv2E, .inv2F, .inv30, .inv33, .inv35, .inv36, .inv37, .inv38,
      .inv39, .inv3A, .inv3B, .inv3C, .inv3D, .inv3E, .inv3F],
    ∀ s : State, exec i s = .next { s with callResult := .fail }

/-- R120, R122: DECODE is the symbol operations run over the operand's symbols: it fails exactly when one of them answers Fail, and
otherwise its bytes are the paired values they answer with. That a symbol row run alone answers is the model's (log 5). -/
def Obligations.DecodeAgreesWithTheSymbolOperations : Prop :=
  ∀ (bs : List Byte) (s : State), bs.length % 3 ≠ 1 →
    (lineDecode bs = none ↔ ∃ x : Sym, x ∈ symbolsOf bs ∧ ∃ i, decode (.bits 6 x.toNat) = .ok i ∧
      exec i s = .next { s with callResult := .fail }) ∧
    (∀ vs : List Nibble, vs.length = (symbolsOf bs).length →
      (∀ (k : Nat) (x : Sym) (v : Nibble), (symbolsOf bs)[k]? = some x → vs[k]? = some v →
        ∃ i, decode (.bits 6 x.toNat) = .ok i ∧ exec i s = .next { s with callResult := .nibble v }) →
      lineDecode bs = some (pairUp vs))

/-! ### Headers -/

/-- R69, R166, R167, R168, R170, R171: a classified header is stored, whatever the environment does meanwhile: the registers take the
tuple's values, the bytes are appended up to the total, Fixed length mode is programmed exactly below the ceiling, the total
in one byte (log 36), and the poll goes on in ReadData. Nothing is read from the FIFO. That the row acts on the
machine alone is the model's (log 6). -/
def Obligations.ClassifiedHeadersAreStored : Prop :=
  ∀ (i : Instr) (k : Classified) (h : List Byte) (s : State),
    classifiesAs i k h → k.expected ≤ s.cfg.bufferCap →
    ∃ t, exec i s = .next t ∧
      t.eng = { s.eng with
        mode := k.mode, block := k.block, lengthField := k.lengthField, expected := some k.expected,
        buf := s.eng.buf ++ h.take (min 3 (k.expected - s.eng.counter)),
        counter := s.eng.counter + min 3 (k.expected - s.eng.counter),
        lengthMode := if k.expected < s.cfg.fixedLenCeiling.val then .fixed else s.eng.lengthMode,
        state := .readData } ∧
      t.result = .noFrame ∧
      (k.expected < s.cfg.fixedLenCeiling.val →
        (∃ n : Byte, n.toNat = k.expected ∧ t.env.chipLengthMode = .fixed n) ∧ t.env.fifoThr = s.cfg.fifoThrRead) ∧
      (¬ k.expected < s.cfg.fixedLenCeiling.val → t.env = s.env ∧ t.plat = s.plat ∧ t.reports = s.reports) ∧
      (∃ arrived, t.env.rxFifo = s.env.rxFifo ++ arrived) ∧
      t.env.txFifo = s.env.txFifo ∧ t.env.rxRequested = s.env.rxRequested ∧ t.env.freq = s.env.freq ∧
      t.cfg = s.cfg ∧ t.callResult = s.callResult ∧ t.request = s.request ∧ t.freeCount = s.freeCount

/-- R170, R171: the same with no step of another agent: exactly these writes and no other (logs 6, 36). -/
def Obligations.ClassifiedHeadersWriteNothingElse : Prop :=
  ∀ (i : Instr) (k : Classified) (h : List Byte) (s : State),
    classifiesAs i k h → k.expected ≤ s.cfg.bufferCap → s.schedule = [] →
    exec i s = .next { s with
      eng := { s.eng with
        mode := k.mode, block := k.block, lengthField := k.lengthField, expected := some k.expected,
        buf := s.eng.buf ++ h.take (min 3 (k.expected - s.eng.counter)),
        counter := s.eng.counter + min 3 (k.expected - s.eng.counter),
        lengthMode := if k.expected < s.cfg.fixedLenCeiling.val then .fixed else s.eng.lengthMode,
        state := .readData },
      env := if k.expected < s.cfg.fixedLenCeiling.val then
          { s.env with chipLengthMode := .fixed (BitVec.ofNat 8 k.expected), fifoThr := s.cfg.fifoThrRead }
        else s.env,
      result := .noFrame }

/-- R172: a total above the cap aborts before anything is stored. That the row acts on the machine alone, in any state, is the model's
(log 6). -/
def Obligations.HeadersAboveTheCapAbort : Prop :=
  ∀ (i : Instr) (k : Classified) (h : List Byte) (s : State),
    classifiesAs i k h → s.cfg.bufferCap < k.expected →
    exec i s = .next { s with
      eng := { s.eng with state := .initRx }, reports := s.reports ++ [.kind .frameTooLarge], result := .noFrame }

/-- R169: a header that is not classifiable writes no register: a diagnostic, NoFrame, nothing else, for all its operands. That the row
acts on the machine alone, in any state, is the model's (log 6). -/
def Obligations.UnclassifiableHeadersWriteNoRegister : Prop :=
  (∀ (h1 h2 : Byte) (s : State), exec (.hdrCInvalid h1 h2) s =
    .next { s with reports := s.reports ++ [.kind .unclassifiableHeader], result := .noFrame }) ∧
  (∀ (a b c d : Sym) (s : State), exec (.hdrUnclassifiable a b c d) s =
    .next { s with reports := s.reports ++ [.kind .unclassifiableHeader], result := .noFrame })

/-- R165: Classify over all windows, by the cases of its lines. -/
def Obligations.ClassifyFollowsItsCases : Prop :=
  ∀ h0 h1 h2 : Byte,
    (h0 = 0x54#8 → h1 = 0xCD#8 → classify h0 h1 h2 = some ⟨.c, .a, h2, 2 + modeTPacketSize h2⟩) ∧
    (h0 = 0x54#8 → h1 = 0x3D#8 → classify h0 h1 h2 = some ⟨.c, .b, h2, 2 + 1 + h2.toNat⟩) ∧
    (h0 = 0x54#8 → h1 ≠ 0xCD#8 → h1 ≠ 0x3D#8 → classify h0 h1 h2 = none) ∧
    (h0 ≠ 0x54#8 → lineDecode [h0, h1, h2] = none → classify h0 h1 h2 = none) ∧
    (h0 ≠ 0x54#8 → ∀ d, lineDecode [h0, h1, h2] = some d → ∃ l m, d = [l, m] ∧
      classify h0 h1 h2 = some ⟨.t, .unknown, l, encodedSize (modeTPacketSize l)⟩)

/-! ### POLL in InitRx -/

/-- R143, R144, R145, R202: the InitRx step never stops and never aborts; whatever the registers held and whatever the environment does
meanwhile, it leaves the engine at its reset values with `firstInitDone` set and `state` at WaitForSync, and the chip as it programs it.
The FIFO holds the bytes that arrived after the flush, which is the step's first port operation (D41, R202): in order, the first 64. -/
def Obligations.InitRxRearmsTheEngine : Prop :=
  ∀ s : State, ∃ t, exec .pollInitRx s = .next t ∧
    t.eng = { state := .waitForSync, buf := [], counter := 0, lengthField := 0#8, expected := none,
              lengthMode := .infinite, mode := .unknown, block := .unknown, syncTime := none, firstInitDone := true } ∧
    t.result = .noFrame ∧ t.env.txFifo = [] ∧ t.env.fifoThr = s.cfg.fifoThrInitial ∧
    t.env.chipLengthMode = .infinite ∧ t.env.rxRequested = true ∧ t.env.freq = s.env.freq ∧
    (∃ arrived, bytesToCome (turn s) = arrived ++ bytesToCome t ∧ t.env.rxFifo = arrived.take 64) ∧
    t.cfg = s.cfg ∧ t.callResult = s.callResult ∧ t.request = s.request ∧ t.freeCount = s.freeCount

/-- R143: with no step of another agent, exactly these writes and no other. The log line is written unless one of the confirmation reads
showed the receive state, which byte that is being free (log 14); the overflow flag falls if the chip clears it on a flush (R202), and
the count of received bytes starts again (both log 9). -/
def Obligations.InitRxWritesNothingElse : Prop :=
  ∀ s : State, s.schedule = [] →
    exec .pollInitRx s = .next { s with
      eng := { state := .waitForSync, buf := [], counter := 0, lengthField := 0#8, expected := none,
               lengthMode := .infinite, mode := .unknown, block := .unknown, syncTime := none, firstInitDone := true },
      env := { s.env with
        rxFifo := [], txFifo := [], fifoThr := s.cfg.fifoThrInitial, chipLengthMode := .infinite, rxRequested := true,
        overflowFlag := s.env.overflowFlag && !s.env.flushClearsOverflow,
        reception := { s.env.reception with synced := s.env.syncLine, received := 0 } },
      reports := if 0 < s.cfg.rxConfirmPolls ∧ Config.showsReceive s.env.chipState = true then s.reports
        else s.reports ++ [.rxNotConfirmed],
      result := .noFrame }

/-- R236, R237, R68: what an aborted or finished frame left in the registers is never read again: the InitRx step gives the same
next state for all register contents. -/
def Obligations.InitRxIgnoresStaleRegisters : Prop :=
  ∀ (s : State) (e : Engine), exec .pollInitRx { s with eng := e } = exec .pollInitRx s

/-- R217 with WB2: after the InitRx step the overflow flag is clear, when no more bytes come than the FIFO holds. -/
def Obligations.InitRxClearsOverflowUnderWB2 : Prop :=
  ∀ s t : State, WB2 s → (bytesToCome s).length ≤ 64 → exec .pollInitRx s = .next t → t.env.overflowFlag = false

/-! ### POLL in WaitForSync -/

/-- R147, R148, R149, R238: the tests of the WaitForSync step in their order, each on a fresh sample, and exactly what each
outcome writes. Sync seen goes on as the WaitForData step in the same call. That a flush clears the overflow flag of a chip that says
so is the model's way to put R202's effect under WB2 (log 9). -/
def Obligations.WaitForSyncTestsInOrder : Prop :=
  ∀ s s1 s2 s3 : State, s1 = turn s → s2 = turn s1 → s3 = turn s2 →
    (s1.env.overflowFlag = true → exec .pollWaitForSync s = .next { s1 with
      eng := { s1.eng with state := .initRx }, reports := s1.reports ++ [.kind .rxOverflow], result := .noFrame }) ∧
    (s1.env.overflowFlag = false → s2.env.syncLine = true → exec .pollWaitForSync s = exec .pollWaitForData { s3 with
      eng := { s3.eng with syncTime := some s3.env.now, state := .waitForData } }) ∧
    (s1.env.overflowFlag = false → s2.env.syncLine = false → s3.env.rxFifo.length ≤ 32 →
      exec .pollWaitForSync s = .next { s3 with result := .noFrame }) ∧
    (s1.env.overflowFlag = false → s2.env.syncLine = false → 32 < s3.env.rxFifo.length →
      exec .pollWaitForSync s = .next { turn s3 with
        env := { (turn s3).env with
          rxFifo := [],
          overflowFlag := (turn s3).env.overflowFlag && !(turn s3).env.flushClearsOverflow },
        result := .noFrame })

/-- R148, R150: on a quiet channel without overflow and sync the step completes, changes no register, and empties the FIFO exactly
when it holds more than 32 bytes. -/
def Obligations.WaitForSyncWithoutSyncCompletes : Prop :=
  ∀ s : State, s.schedule = [] → s.env.overflowFlag = false → s.env.syncLine = false →
    exec .pollWaitForSync s = .next { s with
      env := { s.env with rxFifo := if 32 < s.env.rxFifo.length then [] else s.env.rxFifo }, result := .noFrame }

/-! ### POLL in WaitForData -/

/-- R160, R161, R162, R163, R238: the tests of the WaitForData step in their order, each on a fresh sample; then the header read, which
underflows with fewer than three bytes (R63) and otherwise runs the operation the window decodes to. -/
def Obligations.WaitForDataTestsInOrder : Prop :=
  ∀ (s s1 s2 s3 s4 : State) (t0 : Nat), s.eng.syncTime = some t0 →
    s1 = turn s → s2 = turn s1 → s3 = turn s2 → s4 = turn s3 →
    (s.cfg.syncTimeoutMs < s1.env.now - t0 → exec .pollWaitForData s = .next { s1 with
      eng := { s1.eng with state := .initRx }, reports := s1.reports ++ [.kind .syncTimeout], result := .noFrame }) ∧
    (s1.env.now - t0 ≤ s.cfg.syncTimeoutMs → s2.env.overflowFlag = true → exec .pollWaitForData s = .next { s2 with
      eng := { s2.eng with state := .initRx }, reports := s2.reports ++ [.kind .rxOverflow], result := .noFrame }) ∧
    (s1.env.now - t0 ≤ s.cfg.syncTimeoutMs → s2.env.overflowFlag = false → inThreshold s3 = false →
      exec .pollWaitForData s = .next { s3 with result := .noFrame }) ∧
    (s1.env.now - t0 ≤ s.cfg.syncTimeoutMs → s2.env.overflowFlag = false → inThreshold s3 = true →
      s4.env.rxFifo.length < 3 → exec .pollWaitForData s = .fault .fifoUnderflow) ∧
    (s1.env.now - t0 ≤ s.cfg.syncTimeoutMs → s2.env.overflowFlag = false → inThreshold s3 = true →
      ∀ h0 h1 h2 rest, s4.env.rxFifo = h0 :: h1 :: h2 :: rest →
        ∃ i, decode (.bits 24 (h0 ++ h1 ++ h2).toNat) = .ok i ∧
          exec .pollWaitForData s = exec i { s4 with env := { s4.env with rxFifo := rest } })

/-- R160, R170: on a quiet channel a classifiable header that is ready completes the step: the window leaves the FIFO, the registers
take the tuple, and exactly that. -/
def Obligations.WaitForDataCollectsTheHeader : Prop :=
  ∀ (s : State) (t0 : Nat) (h0 h1 h2 : Byte) (rest : List Byte) (k : Classified),
    s.schedule = [] → s.eng.syncTime = some t0 → s.env.now - t0 ≤ s.cfg.syncTimeoutMs →
    s.env.overflowFlag = false → inThreshold s = true → s.env.rxFifo = h0 :: h1 :: h2 :: rest →
    classify h0 h1 h2 = some k → k.expected ≤ s.cfg.bufferCap →
    exec .pollWaitForData s = .next { s with
      eng := { s.eng with
        mode := k.mode, block := k.block, lengthField := k.lengthField, expected := some k.expected,
        buf := s.eng.buf ++ [h0, h1, h2].take (min 3 (k.expected - s.eng.counter)),
        counter := s.eng.counter + min 3 (k.expected - s.eng.counter),
        lengthMode := if k.expected < s.cfg.fixedLenCeiling.val then .fixed else s.eng.lengthMode,
        state := .readData },
      env := if k.expected < s.cfg.fixedLenCeiling.val then
          { s.env with rxFifo := rest, chipLengthMode := .fixed (BitVec.ofNat 8 k.expected), fifoThr := s.cfg.fifoThrRead }
        else { s.env with rxFifo := rest },
      result := .noFrame }

/-- R63, R216, R217, R235: with a chip that keeps WB1 and a threshold of at least the window, no poll in WaitForData or WaitForSync
underflows, whatever else the environment does; and so every step that polls is a good one. -/
def Obligations.HeaderReadNeverUnderflowsUnderWB1 : Prop :=
  ∀ s : State, WB1 s → 3 ≤ s.env.fifoThr →
    (∃ t, exec .pollWaitForData s = .next t) ∧ (∃ t, exec .pollWaitForSync s = .next t) ∧
    (s.request = none → s.plat.setupAborted = false → goodStep s)

/-! ### POLL in ReadData -/

/-- R180, R182: the overflow flag, sampled first, aborts, a complete frame too (R238). -/
def Obligations.ReadDataOverflowAborts : Prop :=
  ∀ (s : State) (total : Nat), s.eng.expected = some total → (turn s).env.overflowFlag = true →
    exec .pollReadData s = .next { turn s with
      eng := { s.eng with state := .initRx }, reports := (turn s).reports ++ [.kind .rxOverflow], result := .noFrame }

/-- R180, R183, R188: on a quiet channel with at least the remainder in the FIFO the frame completes in this poll: exactly the
remainder is stored, everything else in the FIFO is dropped, and the frame is delivered, decoded for Mode T; a Mode T buffer
that does not decode aborts. -/
def Obligations.ReadDataCompletesTheFrame : Prop :=
  ∀ (s : State) (total t0 : Nat) (full : List Byte),
    s.schedule = [] → s.env.overflowFlag = false → s.eng.expected = some total → s.eng.syncTime = some t0 →
    s.eng.counter < total → total - s.eng.counter ≤ s.env.rxFifo.length →
    full = s.eng.buf ++ s.env.rxFifo.take (total - s.eng.counter) →
    (s.eng.mode ≠ .t → exec .pollReadData s = .next { s with
      eng := { s.eng with buf := full, counter := total, state := .initRx },
      env := { s.env with rxFifo := [] },
      result := .frameReady ⟨full, s.env.rssi, t0, s.eng.mode, s.eng.block⟩ }) ∧
    (s.eng.mode = .t → ∀ d, lineDecode full = some d → exec .pollReadData s = .next { s with
      eng := { s.eng with buf := full, counter := total, state := .initRx },
      env := { s.env with rxFifo := [] },
      result := .frameReady ⟨d, s.env.rssi, t0, .t, s.eng.block⟩ }) ∧
    (s.eng.mode = .t → lineDecode full = none → exec .pollReadData s = .next { s with
      eng := { s.eng with buf := full, counter := total, state := .initRx },
      env := { s.env with rxFifo := [] },
      reports := s.reports ++ [.kind .lineDecodeFailure],
      result := .noFrame })

/-- R181, R188: a frame that is complete on entry is delivered without a drain of payload; the residual bytes are dropped. -/
def Obligations.ReadDataDeliversAFrameCompleteOnEntry : Prop :=
  ∀ (s : State) (t0 : Nat) (out : List Byte),
    s.schedule = [] → s.env.overflowFlag = false → s.eng.expected = some s.eng.counter → s.eng.syncTime = some t0 →
    (s.eng.mode ≠ .t → out = s.eng.buf) → (s.eng.mode = .t → lineDecode s.eng.buf = some out) →
    exec .pollReadData s = .next { s with
      eng := { s.eng with state := .initRx }, env := { s.env with rxFifo := [] },
      result := .frameReady ⟨out, s.env.rssi, t0, s.eng.mode, s.eng.block⟩ }

/-- R183 to R186, R190, R192: on a quiet channel with less than the remainder in the FIFO the poll stores all of it above the
high-water mark and all but one byte otherwise, and stays in ReadData; with no byte or one byte nothing changes. -/
def Obligations.ReadDataWithholdsAByte : Prop :=
  ∀ (s : State) (total n : Nat),
    s.schedule = [] → s.env.overflowFlag = false → s.eng.expected = some total →
    s.eng.counter < total → s.env.rxFifo.length < total - s.eng.counter →
    n = (if 48 < s.env.rxFifo.length then s.env.rxFifo.length else s.env.rxFifo.length - 1) →
    exec .pollReadData s = .next { s with
      eng := { s.eng with buf := s.eng.buf ++ s.env.rxFifo.take n, counter := s.eng.counter + n },
      env := { s.env with rxFifo := s.env.rxFifo.drop n },
      result := .noFrame }

/-- R75, R140, R187: a poll in ReadData always returns, in every state and whatever the environment does: its reads never underflow and
its loop ends. -/
def Obligations.ReadDataAlwaysReturns : Prop :=
  ∀ s : State, ∃ t, exec .pollReadData s = .next t

/-- R187: the loop ends by itself: more fuel than `drainFuel` changes nothing, in every state (log 19). -/
def Obligations.DrainLoopNeverRunsOutOfFuel : Prop :=
  ∀ (total fuel : Nat) (s : State), drainFuel total s ≤ fuel →
    drainLoop total fuel s = drainLoop total (drainFuel total s) s

/-- R61, R65, R66: whatever the environment does, a poll in ReadData writes only `buf`, `counter` and `state`; the stored bytes are
bytes of the FIFO and of what arrives, in their order: none reordered, changed or inserted; and the count stays within the total. -/
def Obligations.ReadDataStoresArrivedBytesInOrder : Prop :=
  ∀ (s t : State) (total : Nat), s.eng.expected = some total → s.eng.counter ≤ total →
    exec .pollReadData s = .next t →
    ∃ stored z, t.eng = { s.eng with buf := s.eng.buf ++ stored, counter := s.eng.counter + stored.length, state := z } ∧
      stored.Sublist (s.env.rxFifo ++ bytesToCome s) ∧ t.eng.counter ≤ total

/-- R40, R188, R189: whatever the environment does, a frame is delivered only with the count at the expected total, and is the buffer,
decoded for Mode T, with the RSSI of the one sample after the final drain. -/
def Obligations.FramesAreDeliveredOnlyComplete : Prop :=
  ∀ (s t : State) (total t0 : Nat) (f : RawFrame),
    s.eng.expected = some total → s.eng.syncTime = some t0 →
    exec .pollReadData s = .next t → t.result = .frameReady f →
    t.eng.counter = total ∧ t.eng.expected = some total ∧ t.eng.state = .initRx ∧
    f.timestamp = t0 ∧ f.rssi = t.env.rssi ∧ f.mode = s.eng.mode ∧ f.block = s.eng.block ∧
    (s.eng.mode = .t → lineDecode t.eng.buf = some f.bytes) ∧ (s.eng.mode ≠ .t → f.bytes = t.eng.buf)

/-- R241: a signal in a state that does not read it has no effect: the SYNC and THRESHOLD lines change nothing of a poll in
ReadData, neither registers nor result nor what is left in the FIFO. -/
def Obligations.ReadDataIgnoresSyncAndThreshold : Prop :=
  ∀ (s t : State) (v w : Bool), exec .pollReadData s = .next t →
    ∃ u, exec .pollReadData { s with env := { s.env with syncLine := v, thresholdLine := w } } = .next u ∧
      u.eng = t.eng ∧ u.result = t.result ∧ u.reports = t.reports ∧ u.env.rxFifo = t.env.rxFifo

/-- R184, R217: a poll in ReadData during which the chip keeps WB4 drops no surplus: the stored bytes, the FIFO and the bytes to come are
the same sequence after it, where the engine held nothing from before sync and the FIFO can hold all that comes (log 9). -/
def Obligations.FixedLengthFramesLoseNoByteUnderWB4 : Prop :=
  ∀ (s t : State) (n : Byte), s.eng.expected = some n.toNat → s.env.chipLengthMode = .fixed n →
    s.eng.counter ≤ n.toNat → heldSinceSync s → s.env.rxFifo.length + (bytesToCome s).length ≤ 64 →
    exec .pollReadData s = .next t → WB4 t →
    t.eng.buf ++ t.env.rxFifo ++ bytesToCome t = s.eng.buf ++ s.env.rxFifo ++ bytesToCome s

/-! ### All polls -/

/-- R141: the pairs of states a poll can go between, and that only a poll from ReadData to InitRx can deliver a frame. -/
def Obligations.PollsFollowTheTransitionTable : Prop :=
  ∀ (s t : State) (i : Instr), i.isPoll = true → encode i = .bits 2 s.eng.state.code.toNat → exec i s = .next t →
    allowedTransition s.eng.state t.eng.state t.result

/-- R182, R231: if the overflow flag is true at the step's sample point, the next state is InitRx, and no frame is delivered; in ReadData
at the top of every iteration of its loop, whatever is left of it. -/
def Obligations.OverflowLeadsToInitRx : Prop :=
  ∀ s : State,
    ((turn s).env.overflowFlag = true →
      (∃ t, exec .pollWaitForSync s = .next t ∧ t.eng.state = .initRx ∧ t.result = .noFrame) ∧
      (∃ t, exec .pollReadData s = .next t ∧ t.eng.state = .initRx ∧ t.result = .noFrame)) ∧
    ((turn (turn s)).env.overflowFlag = true → s.eng.syncTime.isSome = true →
      ∃ t, exec .pollWaitForData s = .next t ∧ t.eng.state = .initRx ∧ t.result = .noFrame) ∧
    ((turn s).env.overflowFlag = true → ∀ total fuel : Nat,
      drainLoop total (fuel + 1) s = .next { turn s with
        eng := { s.eng with state := .initRx }, reports := (turn s).reports ++ [.kind .rxOverflow], result := .noFrame })

/-- R41: the diagnostics are out of band: what is on the channel changes nothing else of any operation's outcome. -/
def Obligations.DiagnosticsAreOutOfBand : Prop :=
  ∀ (i : Instr) (s t : State) (r : List Report), exec i s = .next t →
    ∃ r', exec i { s with reports := r } = .next { t with reports := r' }

/-- R236: taking an abort writes `state`, the diagnostic and the result, and nothing else. -/
def Obligations.AbortWritesOnlyTheState : Prop :=
  ∀ (k : AbortKind) (s : State), raiseAbort k s = .next { s with
    eng := { s.eng with state := .initRx }, reports := s.reports ++ [.kind k.kind], result := .noFrame }

/-! ### Shared operations -/

/-- R183, R184, R185: DrainSize by its three priorities; never more than the occupancy. -/
def Obligations.DrainSizeFollowsItsPriorities : Prop :=
  ∀ occ rem : Nat, 1 ≤ rem →
    (48 < occ → drainSize occ rem = occ) ∧ (occ ≤ 48 → rem ≤ occ → drainSize occ rem = rem) ∧
    (occ ≤ 48 → occ < rem → drainSize occ rem = occ - 1) ∧ drainSize occ rem ≤ occ

/-- R66, R67: AppendBounded stores the first `min(len, expected - counter)` bytes, drops the rest, and writes nothing else. -/
def Obligations.AppendBoundedDropsTheSurplus : Prop :=
  ∀ (total : Nat) (bs : List Byte) (s : State), s.eng.counter ≤ total → s.eng.buf.length = s.eng.counter →
    (appendBounded total bs s = { s with eng := { s.eng with
      buf := s.eng.buf ++ bs.take (min bs.length (total - s.eng.counter)),
      counter := s.eng.counter + min bs.length (total - s.eng.counter) } }) ∧
    (appendBounded total bs s).eng.buf.length = (appendBounded total bs s).eng.counter ∧
    (appendBounded total bs s).eng.counter ≤ total

/-- R62, R208: RD_FIFO returns the oldest bytes, oldest first, and leaves the rest in order; it writes nothing else. More bytes than are
there do not answer (R63). -/
def Obligations.FifoReadTakesTheOldestBytes : Prop :=
  ∀ (s : State) (a z : List Byte), s.schedule = [] → s.env.rxFifo = a ++ z →
    rdFifo a.length s = some (a, { s with env := { s.env with rxFifo := z } }) ∧
    ∀ n, s.env.rxFifo.length < n → rdFifo n s = none

/-- R212: a byte enters the FIFO while there is room; otherwise it is lost and the flag rises. Nothing else changes but the model's own
count of bytes (log 9). -/
def Obligations.ArrivingBytesFillTheFifo : Prop :=
  ∀ (s : State) (x : Byte),
    (s.env.rxFifo.length < 64 → applyEvent s (.byte x) = { s with env := { s.env with
      rxFifo := s.env.rxFifo ++ [x],
      reception := if s.env.reception.synced then { s.env.reception with received := s.env.reception.received + 1 }
        else { s.env.reception with early := s.env.reception.early + 1 } } }) ∧
    (64 ≤ s.env.rxFifo.length → applyEvent s (.byte x) = { s with env := { s.env with overflowFlag := true } })

/-- R217, R252, R281: under WB6, and WB2 for the flag, the wait before a poll and the poll bring at most the 25 bytes of a poll period, and
no overflow to a FIFO with room for them: the flag stays low and no overflow is reported. How WB6 is put in
milliseconds is the model's (log 37). -/
def Obligations.NoOverflowBetweenPollsUnderWB6 : Prop :=
  ∀ s t : State, WB2 s → WB6 s t → s.request = none → step s = .next t →
    s.env.rxFifo.length ≤ 39 → s.env.overflowFlag = false →
    (arrivals (eventsTaken s t)).length ≤ 25 ∧ (awaitPoll s).env.overflowFlag = false ∧ t.env.overflowFlag = false ∧
      t.reports.count (.kind .rxOverflow) = s.reports.count (.kind .rxOverflow)

/-- R255: a push stores the frame while fewer than three are queued, and otherwise drops the new frame and reports it. -/
def Obligations.FullQueueDropsTheNewFrame : Prop :=
  ∀ (s : State) (f : RawFrame),
    (s.plat.queue.length < 3 → pushFrame f s = { s with plat := { s.plat with queue := s.plat.queue ++ [f] } }) ∧
    (3 ≤ s.plat.queue.length → pushFrame f s = { s with reports := s.reports ++ [.kind .queueFull] })

/-- R256, R257: a pop takes the oldest frame, to a handler or to the report of an unhandled frame; on an empty queue it does nothing.
That interest is a bit of the pop is the model's (log 28). -/
def Obligations.PopTakesTheOldestFrame : Prop :=
  ∀ (s : State) (b : Bool),
    (s.plat.queue = [] → applyEvent s (.consume b) = s) ∧
    (∀ f rest, s.plat.queue = f :: rest → applyEvent s (.consume b) =
      if b then { s with plat := { s.plat with queue := rest, dispatched := s.plat.dispatched ++ [f] } }
      else { s with plat := { s.plat with queue := rest }, reports := s.reports ++ [.unhandled] })

/-- R243, R251: the host waits long exactly with an interrupt line and an idle engine, else the short poll period. The wait ends at once
with a wake signal pending; at the first wake signal before the timeout, the other agents' steps up to it having happened and
those after it still to come; and otherwise at the timeout. No byte is lost to the wait, and it writes nothing of the
engine. The model's: the other agents' steps are a schedule (log 7), the wait is part of a poll's own step (log 25), and a wake signal ends
the wait on a platform without one too (log 38). -/
def Obligations.HostWaitEndsAtTheTimeoutOrTheWakeSignal : Prop :=
  ∀ s : State,
    (s.cfg.hasInterrupt = true → s.eng.state = .waitForSync → hostWait s = s.cfg.idleWaitMs) ∧
    ((s.cfg.hasInterrupt = false ∨ s.eng.state ≠ .waitForSync) → hostWait s = 2) ∧
    (s.plat.wakeFlag = true → awaitPoll s = { s with plat := { s.plat with wakeFlag := false } }) ∧
    (s.plat.wakeFlag = false → ∀ before after : List Event,
      s.schedule.flatten = before ++ .wake :: after → .wake ∉ before → elapsed before < hostWait s →
      ∃ l, l.flatten = after ∧ awaitPoll s = { applyEvents s before with schedule := l }) ∧
    (s.plat.wakeFlag = false →
      (∀ before after : List Event, s.schedule.flatten = before ++ .wake :: after → hostWait s ≤ elapsed before) →
      ∃ before l, .wake ∉ before ∧ elapsed before = hostWait s ∧ awaitPoll s = { applyEvents s before with schedule := l } ∧
        arrivals before ++ arrivals l.flatten = bytesToCome s) ∧
    (awaitPoll s).plat.wakeFlag = false ∧ (awaitPoll s).eng = s.eng ∧ (awaitPoll s).cfg = s.cfg ∧
    (awaitPoll s).result = s.result

/-! ### The machine -/

/-- R140, R250: a step runs the operation it decodes. What is around it: the presented operation is taken; for a poll the host's wait
comes before (R251) and the frame, if any, is pushed after (R255); a fault stays a fault. After an aborted setup no poll runs, a presented
one neither (R273). The model's: one step is one operation (log 1), a
presented operation that is no poll runs after an aborted setup (log 18), the push and the wait are part of the poll's own step (logs 24, 25). -/
def Obligations.StepRunsTheDecodedOperation : Prop :=
  ∀ (s : State) (i : Instr), decode (fetchWord s) = .ok i → i.wf = true →
    (i.isPoll = false → step s = exec i { s with request := none }) ∧
    (i.isPoll = true → s.plat.setupAborted = true → step s = .fault .chipUnresponsive) ∧
    (i.isPoll = true → s.plat.setupAborted = false → ∀ s0, s0 = awaitPoll { s with request := none } →
      (∀ t, exec i s0 = .next t → t.result = .noFrame → step s = .next t) ∧
      (∀ t f, exec i s0 = .next t → t.result = .frameReady f → step s = .next (pushFrame f t)) ∧
      (∀ r, exec i s0 = .fault r → step s = .fault r))

/-- R140: with nothing presented the next operation is POLL, and the state register selects its row. -/
def Obligations.StateRegisterSelectsThePoll : Prop :=
  ∀ s : State, s.request = none →
    (s.eng.state = .initRx → decode (fetchWord s) = .ok .pollInitRx) ∧
    (s.eng.state = .waitForSync → decode (fetchWord s) = .ok .pollWaitForSync) ∧
    (s.eng.state = .waitForData → decode (fetchWord s) = .ok .pollWaitForData) ∧
    (s.eng.state = .readData → decode (fetchWord s) = .ok .pollReadData)

/-- R272, R273, R274: a sentinel version byte stops setup and after it no poll happens, a presented one neither; otherwise the
carrier frequency is set, and a
readback disagreement is a warning only. The three registers hold the rounded quotient, where the configuration keeps it within
24 bits; that a half rounds up is the model's (log 34), and so is the fault (log 18). -/
def Obligations.SetupSetsTheFrequencyUnlessTheChipIsMissing : Prop :=
  ∀ (s : State) (b : Bool),
    (s.request = none → step (setup true b s) = .fault .chipUnresponsive) ∧
    (∀ i, decode (fetchWord s) = .ok i → i.isPoll = true → step (setup true b s) = .fault .chipUnresponsive) ∧
    setup true b s = { s with plat := { s.plat with setupAborted := true }, reports := s.reports ++ [.kind .chipUnresponsive] } ∧
    (∀ t, t = setup false b s →
      t = { s with
        env := { s.env with freq := t.env.freq }
        reports := if b = true then s.reports ++ [.kind .registerMismatch] else s.reports } ∧
      (s.cfg.wf → ∀ freq, freq = (t.env.freq.high ++ t.env.freq.mid ++ t.env.freq.low).toNat →
        2 * freq * s.cfg.crystal ≤ 2 * s.cfg.carrier * 2 ^ 16 + s.cfg.crystal ∧
        2 * s.cfg.carrier * 2 ^ 16 < 2 * freq * s.cfg.crystal + s.cfg.crystal))

/-- R47, R270: the engine's registers and the queue right after reset. -/
def Obligations.ResetRegisterValues : Prop :=
  State.reset.eng = { state := .initRx, buf := [], counter := 0, lengthField := 0#8, expected := none,
                      lengthMode := .infinite, mode := .unknown, block := .unknown, syncTime := none,
                      firstInitDone := false } ∧
  State.reset.plat.queue = []

/-- R215, R79, R273 and R274: no step turns the clock back, changes the configuration, writes the frequency registers, or takes back that
setup has aborted; so after an aborted setup no poll ever happens. -/
def Obligations.StepsKeepClockAndConfiguration : Prop :=
  ∀ s t : State, step s = .next t → s.env.now ≤ t.env.now ∧ t.cfg = s.cfg ∧ t.env.freq = s.env.freq ∧
    t.plat.setupAborted = s.plat.setupAborted

/-- R25, R26, R27, R28, R30, R61, R131, R188, R254: the invariant of `Inv` holds again after every step, whatever the environment does: the
table of R30, the form of the byte stores, the mirrored settings of the chip, the clock, the queue, and that every
delivered or queued frame is a good one. That a header window is presented only in WaitForData is the model's (log 6). -/
def Obligations.EveryStepKeepsTheInvariant : Prop :=
  ∀ s t : State, Machine.Inv s → step s = .next t → Machine.Inv t

/-- The state after reset meets the invariant; the transceiver's reset values in it are the model's choice (logs 9 to 12). -/
def Obligations.ResetMeetsTheInvariant : Prop :=
  Machine.Inv State.reset

/-- R28, R188, R189: from a state that meets the invariant, the frame a step delivers is a good one: a legal pair; Mode C with its
markers and the length its length byte asks for; Mode T starting with its length byte and ModeTPacketSize of it long. -/
def Obligations.DeliveredFramesAreWellFormed : Prop :=
  ∀ (s t : State) (f : RawFrame), Machine.Inv s → step s = .next t → t.result = .frameReady f → goodFrame f
end

