-- ==== Sys2Proof/Laws/State.lean ====
section
/-! SUPPORT. One lemma per field per named update of State, and one per operation that is such an update: no later proof unfolds a
record update. -/

namespace Sys2Proof.Machine

@[simp] theorem State.setEng_eng (s : State) (x : Engine) : (s.setEng x).eng = x := rfl
@[simp] theorem State.setEng_env (s : State) (x : Engine) : (s.setEng x).env = s.env := rfl
@[simp] theorem State.setEng_plat (s : State) (x : Engine) : (s.setEng x).plat = s.plat := rfl
@[simp] theorem State.setEng_cfg (s : State) (x : Engine) : (s.setEng x).cfg = s.cfg := rfl
@[simp] theorem State.setEng_result (s : State) (x : Engine) : (s.setEng x).result = s.result := rfl
@[simp] theorem State.setEng_callResult (s : State) (x : Engine) : (s.setEng x).callResult = s.callResult := rfl
@[simp] theorem State.setEng_reports (s : State) (x : Engine) : (s.setEng x).reports = s.reports := rfl
@[simp] theorem State.setEng_request (s : State) (x : Engine) : (s.setEng x).request = s.request := rfl
@[simp] theorem State.setEng_schedule (s : State) (x : Engine) : (s.setEng x).schedule = s.schedule := rfl
@[simp] theorem State.setEng_freeCount (s : State) (x : Engine) : (s.setEng x).freeCount = s.freeCount := rfl

@[simp] theorem State.setEnv_eng (s : State) (x : Env) : (s.setEnv x).eng = s.eng := rfl
@[simp] theorem State.setEnv_env (s : State) (x : Env) : (s.setEnv x).env = x := rfl
@[simp] theorem State.setEnv_plat (s : State) (x : Env) : (s.setEnv x).plat = s.plat := rfl
@[simp] theorem State.setEnv_cfg (s : State) (x : Env) : (s.setEnv x).cfg = s.cfg := rfl
@[simp] theorem State.setEnv_result (s : State) (x : Env) : (s.setEnv x).result = s.result := rfl
@[simp] theorem State.setEnv_callResult (s : State) (x : Env) : (s.setEnv x).callResult = s.callResult := rfl
@[simp] theorem State.setEnv_reports (s : State) (x : Env) : (s.setEnv x).reports = s.reports := rfl
@[simp] theorem State.setEnv_request (s : State) (x : Env) : (s.setEnv x).request = s.request := rfl
@[simp] theorem State.setEnv_schedule (s : State) (x : Env) : (s.setEnv x).schedule = s.schedule := rfl
@[simp] theorem State.setEnv_freeCount (s : State) (x : Env) : (s.setEnv x).freeCount = s.freeCount := rfl

@[simp] theorem State.setPlat_eng (s : State) (x : Platform) : (s.setPlat x).eng = s.eng := rfl
@[simp] theorem State.setPlat_env (s : State) (x : Platform) : (s.setPlat x).env = s.env := rfl
@[simp] theorem State.setPlat_plat (s : State) (x : Platform) : (s.setPlat x).plat = x := rfl
@[simp] theorem State.setPlat_cfg (s : State) (x : Platform) : (s.setPlat x).cfg = s.cfg := rfl
@[simp] theorem State.setPlat_result (s : State) (x : Platform) : (s.setPlat x).result = s.result := rfl
@[simp] theorem State.setPlat_callResult (s : State) (x : Platform) : (s.setPlat x).callResult = s.callResult := rfl
@[simp] theorem State.setPlat_reports (s : State) (x : Platform) : (s.setPlat x).reports = s.reports := rfl
@[simp] theorem State.setPlat_request (s : State) (x : Platform) : (s.setPlat x).request = s.request := rfl
@[simp] theorem State.setPlat_schedule (s : State) (x : Platform) : (s.setPlat x).schedule = s.schedule := rfl
@[simp] theorem State.setPlat_freeCount (s : State) (x : Platform) : (s.setPlat x).freeCount = s.freeCount := rfl

@[simp] theorem State.setResult_eng (s : State) (x : PollResult) : (s.setResult x).eng = s.eng := rfl
@[simp] theorem State.setResult_env (s : State) (x : PollResult) : (s.setResult x).env = s.env := rfl
@[simp] theorem State.setResult_plat (s : State) (x : PollResult) : (s.setResult x).plat = s.plat := rfl
@[simp] theorem State.setResult_cfg (s : State) (x : PollResult) : (s.setResult x).cfg = s.cfg := rfl
@[simp] theorem State.setResult_result (s : State) (x : PollResult) : (s.setResult x).result = x := rfl
@[simp] theorem State.setResult_callResult (s : State) (x : PollResult) : (s.setResult x).callResult = s.callResult := rfl
@[simp] theorem State.setResult_reports (s : State) (x : PollResult) : (s.setResult x).reports = s.reports := rfl
@[simp] theorem State.setResult_request (s : State) (x : PollResult) : (s.setResult x).request = s.request := rfl
@[simp] theorem State.setResult_schedule (s : State) (x : PollResult) : (s.setResult x).schedule = s.schedule := rfl
@[simp] theorem State.setResult_freeCount (s : State) (x : PollResult) : (s.setResult x).freeCount = s.freeCount := rfl

@[simp] theorem State.setCallResult_eng (s : State) (x : CallResult) : (s.setCallResult x).eng = s.eng := rfl
@[simp] theorem State.setCallResult_env (s : State) (x : CallResult) : (s.setCallResult x).env = s.env := rfl
@[simp] theorem State.setCallResult_plat (s : State) (x : CallResult) : (s.setCallResult x).plat = s.plat := rfl
@[simp] theorem State.setCallResult_cfg (s : State) (x : CallResult) : (s.setCallResult x).cfg = s.cfg := rfl
@[simp] theorem State.setCallResult_result (s : State) (x : CallResult) : (s.setCallResult x).result = s.result := rfl
@[simp] theorem State.setCallResult_callResult (s : State) (x : CallResult) : (s.setCallResult x).callResult = x := rfl
@[simp] theorem State.setCallResult_reports (s : State) (x : CallResult) : (s.setCallResult x).reports = s.reports := rfl
@[simp] theorem State.setCallResult_request (s : State) (x : CallResult) : (s.setCallResult x).request = s.request := rfl
@[simp] theorem State.setCallResult_schedule (s : State) (x : CallResult) : (s.setCallResult x).schedule = s.schedule := rfl
@[simp] theorem State.setCallResult_freeCount (s : State) (x : CallResult) : (s.setCallResult x).freeCount = s.freeCount := rfl

@[simp] theorem State.setReports_eng (s : State) (x : List Report) : (s.setReports x).eng = s.eng := rfl
@[simp] theorem State.setReports_env (s : State) (x : List Report) : (s.setReports x).env = s.env := rfl
@[simp] theorem State.setReports_plat (s : State) (x : List Report) : (s.setReports x).plat = s.plat := rfl
@[simp] theorem State.setReports_cfg (s : State) (x : List Report) : (s.setReports x).cfg = s.cfg := rfl
@[simp] theorem State.setReports_result (s : State) (x : List Report) : (s.setReports x).result = s.result := rfl
@[simp] theorem State.setReports_callResult (s : State) (x : List Report) : (s.setReports x).callResult = s.callResult := rfl
@[simp] theorem State.setReports_reports (s : State) (x : List Report) : (s.setReports x).reports = x := rfl
@[simp] theorem State.setReports_request (s : State) (x : List Report) : (s.setReports x).request = s.request := rfl
@[simp] theorem State.setReports_schedule (s : State) (x : List Report) : (s.setReports x).schedule = s.schedule := rfl
@[simp] theorem State.setReports_freeCount (s : State) (x : List Report) : (s.setReports x).freeCount = s.freeCount := rfl

@[simp] theorem State.setRequest_eng (s : State) (x : Option Encoded) : (s.setRequest x).eng = s.eng := rfl
@[simp] theorem State.setRequest_env (s : State) (x : Option Encoded) : (s.setRequest x).env = s.env := rfl
@[simp] theorem State.setRequest_plat (s : State) (x : Option Encoded) : (s.setRequest x).plat = s.plat := rfl
@[simp] theorem State.setRequest_cfg (s : State) (x : Option Encoded) : (s.setRequest x).cfg = s.cfg := rfl
@[simp] theorem State.setRequest_result (s : State) (x : Option Encoded) : (s.setRequest x).result = s.result := rfl
@[simp] theorem State.setRequest_callResult (s : State) (x : Option Encoded) : (s.setRequest x).callResult = s.callResult := rfl
@[simp] theorem State.setRequest_reports (s : State) (x : Option Encoded) : (s.setRequest x).reports = s.reports := rfl
@[simp] theorem State.setRequest_request (s : State) (x : Option Encoded) : (s.setRequest x).request = x := rfl
@[simp] theorem State.setRequest_schedule (s : State) (x : Option Encoded) : (s.setRequest x).schedule = s.schedule := rfl
@[simp] theorem State.setRequest_freeCount (s : State) (x : Option Encoded) : (s.setRequest x).freeCount = s.freeCount := rfl

@[simp] theorem State.setSchedule_eng (s : State) (x : List (List Event)) : (s.setSchedule x).eng = s.eng := rfl
@[simp] theorem State.setSchedule_env (s : State) (x : List (List Event)) : (s.setSchedule x).env = s.env := rfl
@[simp] theorem State.setSchedule_plat (s : State) (x : List (List Event)) : (s.setSchedule x).plat = s.plat := rfl
@[simp] theorem State.setSchedule_cfg (s : State) (x : List (List Event)) : (s.setSchedule x).cfg = s.cfg := rfl
@[simp] theorem State.setSchedule_result (s : State) (x : List (List Event)) : (s.setSchedule x).result = s.result := rfl
@[simp] theorem State.setSchedule_callResult (s : State) (x : List (List Event)) : (s.setSchedule x).callResult = s.callResult := rfl
@[simp] theorem State.setSchedule_reports (s : State) (x : List (List Event)) : (s.setSchedule x).reports = s.reports := rfl
@[simp] theorem State.setSchedule_request (s : State) (x : List (List Event)) : (s.setSchedule x).request = s.request := rfl
@[simp] theorem State.setSchedule_schedule (s : State) (x : List (List Event)) : (s.setSchedule x).schedule = x := rfl
@[simp] theorem State.setSchedule_freeCount (s : State) (x : List (List Event)) : (s.setSchedule x).freeCount = s.freeCount := rfl

@[simp] theorem State.setFreeCount_eng (s : State) (x : Nat) : (s.setFreeCount x).eng = s.eng := rfl
@[simp] theorem State.setFreeCount_env (s : State) (x : Nat) : (s.setFreeCount x).env = s.env := rfl
@[simp] theorem State.setFreeCount_plat (s : State) (x : Nat) : (s.setFreeCount x).plat = s.plat := rfl
@[simp] theorem State.setFreeCount_cfg (s : State) (x : Nat) : (s.setFreeCount x).cfg = s.cfg := rfl
@[simp] theorem State.setFreeCount_result (s : State) (x : Nat) : (s.setFreeCount x).result = s.result := rfl
@[simp] theorem State.setFreeCount_callResult (s : State) (x : Nat) : (s.setFreeCount x).callResult = s.callResult := rfl
@[simp] theorem State.setFreeCount_reports (s : State) (x : Nat) : (s.setFreeCount x).reports = s.reports := rfl
@[simp] theorem State.setFreeCount_request (s : State) (x : Nat) : (s.setFreeCount x).request = s.request := rfl
@[simp] theorem State.setFreeCount_schedule (s : State) (x : Nat) : (s.setFreeCount x).schedule = s.schedule := rfl
@[simp] theorem State.setFreeCount_freeCount (s : State) (x : Nat) : (s.setFreeCount x).freeCount = x := rfl

@[simp] theorem State.setEng_eta (s : State) : s.setEng s.eng = s := rfl
@[simp] theorem State.setEnv_eta (s : State) : s.setEnv s.env = s := rfl

@[simp] theorem Env.setSync_syncLine (e : Env) (v : Bool) : (e.setSync v).syncLine = v := rfl
@[simp] theorem Env.setSync_rxFifo (e : Env) (v : Bool) : (e.setSync v).rxFifo = e.rxFifo := rfl
@[simp] theorem Env.setSync_txFifo (e : Env) (v : Bool) : (e.setSync v).txFifo = e.txFifo := rfl
@[simp] theorem Env.setSync_fifoThr (e : Env) (v : Bool) : (e.setSync v).fifoThr = e.fifoThr := rfl
@[simp] theorem Env.setSync_chipLengthMode (e : Env) (v : Bool) : (e.setSync v).chipLengthMode = e.chipLengthMode := rfl
@[simp] theorem Env.setSync_chipState (e : Env) (v : Bool) : (e.setSync v).chipState = e.chipState := rfl
@[simp] theorem Env.setSync_rxRequested (e : Env) (v : Bool) : (e.setSync v).rxRequested = e.rxRequested := rfl
@[simp] theorem Env.setSync_thresholdLine (e : Env) (v : Bool) : (e.setSync v).thresholdLine = e.thresholdLine := rfl
@[simp] theorem Env.setSync_overflowFlag (e : Env) (v : Bool) : (e.setSync v).overflowFlag = e.overflowFlag := rfl
@[simp] theorem Env.setSync_rssi (e : Env) (v : Bool) : (e.setSync v).rssi = e.rssi := rfl
@[simp] theorem Env.setSync_now (e : Env) (v : Bool) : (e.setSync v).now = e.now := rfl
@[simp] theorem Env.setSync_tracksThreshold (e : Env) (v : Bool) : (e.setSync v).tracksThreshold = e.tracksThreshold := rfl
@[simp] theorem Env.setSync_flushClearsOverflow (e : Env) (v : Bool) : (e.setSync v).flushClearsOverflow = e.flushClearsOverflow := rfl
@[simp] theorem Env.setSync_freq (e : Env) (v : Bool) : (e.setSync v).freq = e.freq := rfl
@[simp] theorem Env.setSync_reception (e : Env) (v : Bool) :
    (e.setSync v).reception = e.reception.syncAt e.syncLine e.chipLengthMode v := rfl

@[simp] theorem emit_eng (r : Report) (s : State) : (emit r s).eng = s.eng := rfl
@[simp] theorem emit_env (r : Report) (s : State) : (emit r s).env = s.env := rfl
@[simp] theorem emit_plat (r : Report) (s : State) : (emit r s).plat = s.plat := rfl
@[simp] theorem emit_cfg (r : Report) (s : State) : (emit r s).cfg = s.cfg := rfl
@[simp] theorem emit_result (r : Report) (s : State) : (emit r s).result = s.result := rfl
@[simp] theorem emit_callResult (r : Report) (s : State) : (emit r s).callResult = s.callResult := rfl
@[simp] theorem emit_reports (r : Report) (s : State) : (emit r s).reports = s.reports ++ [r] := rfl
@[simp] theorem emit_request (r : Report) (s : State) : (emit r s).request = s.request := rfl
@[simp] theorem emit_schedule (r : Report) (s : State) : (emit r s).schedule = s.schedule := rfl
@[simp] theorem emit_freeCount (r : Report) (s : State) : (emit r s).freeCount = s.freeCount := rfl

@[simp] theorem appendBounded_eng (total : Nat) (bs : List Byte) (s : State) : (appendBounded total bs s).eng = s.eng.append total bs := rfl
@[simp] theorem appendBounded_env (total : Nat) (bs : List Byte) (s : State) : (appendBounded total bs s).env = s.env := rfl
@[simp] theorem appendBounded_plat (total : Nat) (bs : List Byte) (s : State) : (appendBounded total bs s).plat = s.plat := rfl
@[simp] theorem appendBounded_cfg (total : Nat) (bs : List Byte) (s : State) : (appendBounded total bs s).cfg = s.cfg := rfl
@[simp] theorem appendBounded_result (total : Nat) (bs : List Byte) (s : State) : (appendBounded total bs s).result = s.result := rfl
@[simp] theorem appendBounded_callResult (total : Nat) (bs : List Byte) (s : State) : (appendBounded total bs s).callResult = s.callResult := rfl
@[simp] theorem appendBounded_reports (total : Nat) (bs : List Byte) (s : State) : (appendBounded total bs s).reports = s.reports := rfl
@[simp] theorem appendBounded_request (total : Nat) (bs : List Byte) (s : State) : (appendBounded total bs s).request = s.request := rfl
@[simp] theorem appendBounded_schedule (total : Nat) (bs : List Byte) (s : State) : (appendBounded total bs s).schedule = s.schedule := rfl
@[simp] theorem appendBounded_freeCount (total : Nat) (bs : List Byte) (s : State) : (appendBounded total bs s).freeCount = s.freeCount := rfl

@[simp] theorem Engine.goto_state (e : Engine) (a : AcqState) : (e.goto a).state = a := rfl
@[simp] theorem Engine.goto_buf (e : Engine) (a : AcqState) : (e.goto a).buf = e.buf := rfl
@[simp] theorem Engine.goto_counter (e : Engine) (a : AcqState) : (e.goto a).counter = e.counter := rfl
@[simp] theorem Engine.goto_lengthField (e : Engine) (a : AcqState) : (e.goto a).lengthField = e.lengthField := rfl
@[simp] theorem Engine.goto_expected (e : Engine) (a : AcqState) : (e.goto a).expected = e.expected := rfl
@[simp] theorem Engine.goto_lengthMode (e : Engine) (a : AcqState) : (e.goto a).lengthMode = e.lengthMode := rfl
@[simp] theorem Engine.goto_mode (e : Engine) (a : AcqState) : (e.goto a).mode = e.mode := rfl
@[simp] theorem Engine.goto_block (e : Engine) (a : AcqState) : (e.goto a).block = e.block := rfl
@[simp] theorem Engine.goto_syncTime (e : Engine) (a : AcqState) : (e.goto a).syncTime = e.syncTime := rfl
@[simp] theorem Engine.goto_firstInitDone (e : Engine) (a : AcqState) : (e.goto a).firstInitDone = e.firstInitDone := rfl

@[simp] theorem Engine.fixedLength_state (e : Engine) : (e.fixedLength).state = e.state := rfl
@[simp] theorem Engine.fixedLength_buf (e : Engine) : (e.fixedLength).buf = e.buf := rfl
@[simp] theorem Engine.fixedLength_counter (e : Engine) : (e.fixedLength).counter = e.counter := rfl
@[simp] theorem Engine.fixedLength_lengthField (e : Engine) : (e.fixedLength).lengthField = e.lengthField := rfl
@[simp] theorem Engine.fixedLength_expected (e : Engine) : (e.fixedLength).expected = e.expected := rfl
@[simp] theorem Engine.fixedLength_lengthMode (e : Engine) : (e.fixedLength).lengthMode = .fixed := rfl
@[simp] theorem Engine.fixedLength_mode (e : Engine) : (e.fixedLength).mode = e.mode := rfl
@[simp] theorem Engine.fixedLength_block (e : Engine) : (e.fixedLength).block = e.block := rfl
@[simp] theorem Engine.fixedLength_syncTime (e : Engine) : (e.fixedLength).syncTime = e.syncTime := rfl
@[simp] theorem Engine.fixedLength_firstInitDone (e : Engine) : (e.fixedLength).firstInitDone = e.firstInitDone := rfl

@[simp] theorem Engine.classified_state (e : Engine) (c : Classified) : (e.classified c).state = e.state := rfl
@[simp] theorem Engine.classified_buf (e : Engine) (c : Classified) : (e.classified c).buf = e.buf := rfl
@[simp] theorem Engine.classified_counter (e : Engine) (c : Classified) : (e.classified c).counter = e.counter := rfl
@[simp] theorem Engine.classified_lengthField (e : Engine) (c : Classified) : (e.classified c).lengthField = c.lengthField := rfl
@[simp] theorem Engine.classified_expected (e : Engine) (c : Classified) : (e.classified c).expected = some c.expected := rfl
@[simp] theorem Engine.classified_lengthMode (e : Engine) (c : Classified) : (e.classified c).lengthMode = e.lengthMode := rfl
@[simp] theorem Engine.classified_mode (e : Engine) (c : Classified) : (e.classified c).mode = c.mode := rfl
@[simp] theorem Engine.classified_block (e : Engine) (c : Classified) : (e.classified c).block = c.block := rfl
@[simp] theorem Engine.classified_syncTime (e : Engine) (c : Classified) : (e.classified c).syncTime = e.syncTime := rfl
@[simp] theorem Engine.classified_firstInitDone (e : Engine) (c : Classified) : (e.classified c).firstInitDone = e.firstInitDone := rfl

@[simp] theorem Engine.syncSeen_state (e : Engine) (t : Nat) : (e.syncSeen t).state = .waitForData := rfl
@[simp] theorem Engine.syncSeen_buf (e : Engine) (t : Nat) : (e.syncSeen t).buf = e.buf := rfl
@[simp] theorem Engine.syncSeen_counter (e : Engine) (t : Nat) : (e.syncSeen t).counter = e.counter := rfl
@[simp] theorem Engine.syncSeen_lengthField (e : Engine) (t : Nat) : (e.syncSeen t).lengthField = e.lengthField := rfl
@[simp] theorem Engine.syncSeen_expected (e : Engine) (t : Nat) : (e.syncSeen t).expected = e.expected := rfl
@[simp] theorem Engine.syncSeen_lengthMode (e : Engine) (t : Nat) : (e.syncSeen t).lengthMode = e.lengthMode := rfl
@[simp] theorem Engine.syncSeen_mode (e : Engine) (t : Nat) : (e.syncSeen t).mode = e.mode := rfl
@[simp] theorem Engine.syncSeen_block (e : Engine) (t : Nat) : (e.syncSeen t).block = e.block := rfl
@[simp] theorem Engine.syncSeen_syncTime (e : Engine) (t : Nat) : (e.syncSeen t).syncTime = some t := rfl
@[simp] theorem Engine.syncSeen_firstInitDone (e : Engine) (t : Nat) : (e.syncSeen t).firstInitDone = e.firstInitDone := rfl

@[simp] theorem Engine.append_state (e : Engine) (total : Nat) (bs : List Byte) : (e.append total bs).state = e.state := rfl
@[simp] theorem Engine.append_buf (e : Engine) (total : Nat) (bs : List Byte) : (e.append total bs).buf = e.buf ++ bs.take (min bs.length (total - e.counter)) := rfl
@[simp] theorem Engine.append_counter (e : Engine) (total : Nat) (bs : List Byte) : (e.append total bs).counter = e.counter + min bs.length (total - e.counter) := rfl
@[simp] theorem Engine.append_lengthField (e : Engine) (total : Nat) (bs : List Byte) : (e.append total bs).lengthField = e.lengthField := rfl
@[simp] theorem Engine.append_expected (e : Engine) (total : Nat) (bs : List Byte) : (e.append total bs).expected = e.expected := rfl
@[simp] theorem Engine.append_lengthMode (e : Engine) (total : Nat) (bs : List Byte) : (e.append total bs).lengthMode = e.lengthMode := rfl
@[simp] theorem Engine.append_mode (e : Engine) (total : Nat) (bs : List Byte) : (e.append total bs).mode = e.mode := rfl
@[simp] theorem Engine.append_block (e : Engine) (total : Nat) (bs : List Byte) : (e.append total bs).block = e.block := rfl
@[simp] theorem Engine.append_syncTime (e : Engine) (total : Nat) (bs : List Byte) : (e.append total bs).syncTime = e.syncTime := rfl
@[simp] theorem Engine.append_firstInitDone (e : Engine) (total : Nat) (bs : List Byte) : (e.append total bs).firstInitDone = e.firstInitDone := rfl

end Sys2Proof.Machine
end

