-- ==== Sys2Proof/Laws/Agents.lean ====
section
/-! SUPPORT. What a turn of the other agents can do, said once (R32, R74, R211 to R215, R256): it appends to the receive FIFO, moves lines
and the clock forward, pops the queue, and writes nothing of the engine, the settings or the results. -/

namespace Sys2Proof.Machine

/-- `t` is `s` after steps of the environment and the consumer alone. -/
structure AgentsOnly (s t : State) : Prop where
  eng : t.eng = s.eng
  cfg : t.cfg = s.cfg
  result : t.result = s.result
  callResult : t.callResult = s.callResult
  request : t.request = s.request
  freeCount : t.freeCount = s.freeCount
  txFifo : t.env.txFifo = s.env.txFifo
  fifoThr : t.env.fifoThr = s.env.fifoThr
  chipLengthMode : t.env.chipLengthMode = s.env.chipLengthMode
  rxRequested : t.env.rxRequested = s.env.rxRequested
  tracks : t.env.tracksThreshold = s.env.tracksThreshold
  flushClears : t.env.flushClearsOverflow = s.env.flushClearsOverflow
  fifo : ∃ extra, t.env.rxFifo = s.env.rxFifo ++ extra
  capacity : s.env.rxFifo.length ≤ Params.fifoCapacity → t.env.rxFifo.length ≤ Params.fifoCapacity
  clock : s.env.now ≤ t.env.now
  queue : ∃ k, t.plat.queue = s.plat.queue.drop k
  aborted : t.plat.setupAborted = s.plat.setupAborted
  freq : t.env.freq = s.env.freq

theorem AgentsOnly.refl (s : State) : AgentsOnly s s where
  eng := rfl
  cfg := rfl
  result := rfl
  callResult := rfl
  request := rfl
  freeCount := rfl
  txFifo := rfl
  fifoThr := rfl
  chipLengthMode := rfl
  rxRequested := rfl
  tracks := rfl
  flushClears := rfl
  fifo := ⟨[], by simp⟩
  capacity := id
  clock := le_refl _
  queue := ⟨0, by simp⟩
  aborted := rfl
  freq := rfl

theorem AgentsOnly.trans {s t u : State} (h : AgentsOnly s t) (k : AgentsOnly t u) : AgentsOnly s u where
  eng := k.eng.trans h.eng
  cfg := k.cfg.trans h.cfg
  result := k.result.trans h.result
  callResult := k.callResult.trans h.callResult
  request := k.request.trans h.request
  freeCount := k.freeCount.trans h.freeCount
  txFifo := k.txFifo.trans h.txFifo
  fifoThr := k.fifoThr.trans h.fifoThr
  chipLengthMode := k.chipLengthMode.trans h.chipLengthMode
  rxRequested := k.rxRequested.trans h.rxRequested
  tracks := k.tracks.trans h.tracks
  flushClears := k.flushClears.trans h.flushClears
  fifo := by
    obtain ⟨x, hx⟩ := h.fifo
    obtain ⟨y, hy⟩ := k.fifo
    exact ⟨x ++ y, by rw [hy, hx, List.append_assoc]⟩
  capacity := fun c => k.capacity (h.capacity c)
  clock := h.clock.trans k.clock
  queue := by
    obtain ⟨m, hm⟩ := h.queue
    obtain ⟨n, hn⟩ := k.queue
    exact ⟨m + n, by rw [hn, hm, List.drop_drop]⟩
  aborted := k.aborted.trans h.aborted
  freq := k.freq.trans h.freq

/-- A change of the environment that keeps the engine's settings, appends to the FIFO within its capacity and never turns the
clock back. -/
theorem AgentsOnly.of_env (s : State) (e : Env)
    (h1 : e.txFifo = s.env.txFifo) (h2 : e.fifoThr = s.env.fifoThr) (h3 : e.chipLengthMode = s.env.chipLengthMode)
    (h4 : e.rxRequested = s.env.rxRequested) (h5 : e.tracksThreshold = s.env.tracksThreshold)
    (h6 : e.flushClearsOverflow = s.env.flushClearsOverflow) (h7 : ∃ extra, e.rxFifo = s.env.rxFifo ++ extra)
    (h8 : s.env.rxFifo.length ≤ Params.fifoCapacity → e.rxFifo.length ≤ Params.fifoCapacity)
    (h9 : s.env.now ≤ e.now) (h10 : e.freq = s.env.freq) : AgentsOnly s (s.setEnv e) where
  eng := rfl
  cfg := rfl
  result := rfl
  callResult := rfl
  request := rfl
  freeCount := rfl
  txFifo := h1
  fifoThr := h2
  chipLengthMode := h3
  rxRequested := h4
  tracks := h5
  flushClears := h6
  fifo := h7
  capacity := h8
  clock := h9
  queue := ⟨0, by simp⟩
  aborted := rfl
  freq := h10

/-- A change of the host's side that pops frames. -/
theorem AgentsOnly.of_plat (s : State) (p : Platform) (h1 : ∃ k, p.queue = s.plat.queue.drop k)
    (h2 : p.setupAborted = s.plat.setupAborted) : AgentsOnly s (s.setPlat p) where
  eng := rfl
  cfg := rfl
  result := rfl
  callResult := rfl
  request := rfl
  freeCount := rfl
  txFifo := rfl
  fifoThr := rfl
  chipLengthMode := rfl
  rxRequested := rfl
  tracks := rfl
  flushClears := rfl
  fifo := ⟨[], by simp⟩
  capacity := id
  clock := le_refl _
  queue := h1
  aborted := h2
  freq := rfl

theorem AgentsOnly.of_reports (s : State) (r : List Report) : AgentsOnly s (s.setReports r) where
  eng := rfl
  cfg := rfl
  result := rfl
  callResult := rfl
  request := rfl
  freeCount := rfl
  txFifo := rfl
  fifoThr := rfl
  chipLengthMode := rfl
  rxRequested := rfl
  tracks := rfl
  flushClears := rfl
  fifo := ⟨[], by simp⟩
  capacity := id
  clock := le_refl _
  queue := ⟨0, by simp⟩
  aborted := rfl
  freq := rfl

theorem AgentsOnly.of_schedule (s : State) (l : List (List Event)) : AgentsOnly s (s.setSchedule l) where
  eng := rfl
  cfg := rfl
  result := rfl
  callResult := rfl
  request := rfl
  freeCount := rfl
  txFifo := rfl
  fifoThr := rfl
  chipLengthMode := rfl
  rxRequested := rfl
  tracks := rfl
  flushClears := rfl
  fifo := ⟨[], by simp⟩
  capacity := id
  clock := le_refl _
  queue := ⟨0, by simp⟩
  aborted := rfl
  freq := rfl

/-- ENV_BYTE appends within the capacity or raises the flag (R212). -/
theorem receive_agentsOnly (s : State) (b : Byte) : AgentsOnly s (s.setEnv (s.env.receive b)) := by
  unfold Env.receive
  split
  · next h =>
    refine AgentsOnly.of_env s _ rfl rfl rfl rfl rfl rfl ⟨[b], rfl⟩ (fun _ => ?_) (le_refl _) rfl
    simp only [List.length_append, List.length_singleton]
    omega
  · exact AgentsOnly.of_env s _ rfl rfl rfl rfl rfl rfl ⟨[], by simp⟩ id (le_refl _) rfl

/-- The consumer's pop (R256). -/
theorem consume_agentsOnly (i : Bool) (s : State) : AgentsOnly s (consume i s) := by
  unfold consume
  split
  · exact AgentsOnly.refl s
  · next f rest hq =>
    have hpop : AgentsOnly s (s.setPlat { s.plat with queue := rest }) :=
      AgentsOnly.of_plat s _ ⟨1, by simp [hq]⟩ rfl
    cases i
    · exact hpop.trans (AgentsOnly.of_reports _ _)
    · exact hpop.trans (AgentsOnly.of_plat _ _ ⟨0, by simp⟩ rfl)

theorem applyEvent_agentsOnly (s : State) (e : Event) : AgentsOnly s (applyEvent s e) := by
  cases e with
  | byte b => exact receive_agentsOnly s b
  | consume i => exact consume_agentsOnly i s
  | wake => exact AgentsOnly.of_plat s _ ⟨0, by simp⟩ rfl
  | time d => exact AgentsOnly.of_env s _ rfl rfl rfl rfl rfl rfl ⟨[], by simp⟩ id (Nat.le_add_right _ _) rfl
  | sync v => exact AgentsOnly.of_env s _ rfl rfl rfl rfl rfl rfl ⟨[], by simp [Env.setSync]⟩ id (le_refl _) rfl
  | threshold v => exact AgentsOnly.of_env s _ rfl rfl rfl rfl rfl rfl ⟨[], by simp⟩ id (le_refl _) rfl
  | overflow v => exact AgentsOnly.of_env s _ rfl rfl rfl rfl rfl rfl ⟨[], by simp⟩ id (le_refl _) rfl
  | chipState c => exact AgentsOnly.of_env s _ rfl rfl rfl rfl rfl rfl ⟨[], by simp⟩ id (le_refl _) rfl
  | rssi r => exact AgentsOnly.of_env s _ rfl rfl rfl rfl rfl rfl ⟨[], by simp⟩ id (le_refl _) rfl

/-- The clock moves by the time an event takes (R215). -/
theorem applyEvent_now (s : State) (e : Event) : (applyEvent s e).env.now = s.env.now + e.elapses := by
  cases e with
  | byte b => simp only [applyEvent, State.setEnv_env, Env.receive]; split <;> rfl
  | consume i =>
    simp only [applyEvent, consume]
    split
    · rfl
    · cases i <;> rfl
  | _ => rfl

theorem applyEvents_agentsOnly (es : List Event) (s : State) : AgentsOnly s (applyEvents s es) := by
  induction es generalizing s with
  | nil => exact AgentsOnly.refl s
  | cons e es ih => exact (applyEvent_agentsOnly s e).trans (ih _)

/-- What a turn can do. -/
theorem turn_agentsOnly (s : State) : AgentsOnly s (turn s) := by
  unfold turn
  split
  · exact AgentsOnly.refl s
  · exact (AgentsOnly.of_schedule s _).trans (applyEvents_agentsOnly _ _)

/-- The host's wait is steps of the other agents, and takes no more time than it has left (R251). -/
theorem waitBatch_agentsOnly (es : List Event) (left : Nat) (s : State) :
    AgentsOnly s (waitBatch left es s).2.2 ∧
      (waitBatch left es s).2.2.env.now + (waitBatch left es s).1 ≤ s.env.now + left := by
  induction es generalizing left s with
  | nil => exact ⟨AgentsOnly.refl s, le_refl _⟩
  | cons e es ih =>
    cases left with
    | zero => exact ⟨AgentsOnly.refl s, le_refl _⟩
    | succ n =>
      rw [waitBatch]
      split_ifs with hw hd
      · exact ⟨applyEvent_agentsOnly s .wake, Nat.le_add_right _ _⟩
      · obtain ⟨h, k⟩ := ih (n + 1 - e.elapses) (applyEvent s e)
        refine ⟨(applyEvent_agentsOnly s e).trans h, k.trans ?_⟩
        rw [applyEvent_now]
        omega
      · exact ⟨applyEvent_agentsOnly s (.time (n + 1)), le_refl _⟩

theorem waitSchedule_agentsOnly (l : List (List Event)) (left : Nat) (s : State) :
    AgentsOnly s (waitSchedule left l s) ∧ (waitSchedule left l s).env.now ≤ s.env.now + left := by
  induction l generalizing left s with
  | nil => exact ⟨(AgentsOnly.of_schedule s []).trans (applyEvent_agentsOnly _ _), le_refl _⟩
  | cons b rest ih =>
    obtain ⟨h, k⟩ := waitBatch_agentsOnly b left s
    rw [waitSchedule]
    generalize waitBatch left b s = w at h k
    obtain ⟨_ | n, es, t⟩ := w
    · exact ⟨h.trans (AgentsOnly.of_schedule t _), k⟩
    · obtain ⟨h', k'⟩ := ih (n + 1) t
      exact ⟨h.trans h', k'.trans k⟩

/-- What the wait before a poll can do (R250, R251): steps of the other agents that take no longer than its timeout; the wake signal is
down after it. -/
theorem awaitPoll_agentsOnly (s : State) : AgentsOnly s (awaitPoll s) ∧
    (awaitPoll s).env.now ≤ s.env.now + hostWait s ∧ (awaitPoll s).plat.wakeFlag = false := by
  unfold awaitPoll
  split
  · exact ⟨AgentsOnly.of_plat _ _ ⟨0, by simp⟩ rfl, Nat.le_add_right _ _, rfl⟩
  · obtain ⟨h, k⟩ := waitSchedule_agentsOnly s.schedule (hostWait s) s
    exact ⟨h.trans (AgentsOnly.of_plat _ _ ⟨0, by simp⟩ rfl), k, rfl⟩

/-- With nothing scheduled and no wake signal pending the wait lasts to its timeout (R251). -/
theorem awaitPoll_quiet {s : State} (hs : s.schedule = []) (hw : s.plat.wakeFlag = false) :
    awaitPoll s = s.setEnv { s.env with now := s.env.now + hostWait s } := by
  obtain ⟨eng, env, ⟨queue, wake, dispatched, aborted⟩, cfg, result, callResult, reports, request, schedule, freeCount⟩ := s
  cases hs
  cases hw
  rfl

@[simp] theorem awaitPoll_eng (s : State) : (awaitPoll s).eng = s.eng := (awaitPoll_agentsOnly s).1.eng
@[simp] theorem awaitPoll_cfg (s : State) : (awaitPoll s).cfg = s.cfg := (awaitPoll_agentsOnly s).1.cfg
@[simp] theorem awaitPoll_request (s : State) : (awaitPoll s).request = s.request := (awaitPoll_agentsOnly s).1.request
@[simp] theorem awaitPoll_result (s : State) : (awaitPoll s).result = s.result := (awaitPoll_agentsOnly s).1.result

/-- With nothing scheduled a turn is nothing. -/
theorem turn_quiet {s : State} (h : s.schedule = []) : turn s = s := by simp [turn, h]

@[simp] theorem turn_cfg (s : State) : (turn s).cfg = s.cfg := (turn_agentsOnly s).cfg
@[simp] theorem turn_result (s : State) : (turn s).result = s.result := (turn_agentsOnly s).result
@[simp] theorem turn_callResult (s : State) : (turn s).callResult = s.callResult := (turn_agentsOnly s).callResult
@[simp] theorem turn_request (s : State) : (turn s).request = s.request := (turn_agentsOnly s).request
@[simp] theorem turn_freeCount (s : State) : (turn s).freeCount = s.freeCount := (turn_agentsOnly s).freeCount
@[simp] theorem turn_txFifo (s : State) : (turn s).env.txFifo = s.env.txFifo := (turn_agentsOnly s).txFifo
@[simp] theorem turn_fifoThr (s : State) : (turn s).env.fifoThr = s.env.fifoThr := (turn_agentsOnly s).fifoThr
@[simp] theorem turn_chipLengthMode (s : State) : (turn s).env.chipLengthMode = s.env.chipLengthMode :=
  (turn_agentsOnly s).chipLengthMode
@[simp] theorem turn_freq (s : State) : (turn s).env.freq = s.env.freq := (turn_agentsOnly s).freq
@[simp] theorem turn_setupAborted (s : State) : (turn s).plat.setupAborted = s.plat.setupAborted := (turn_agentsOnly s).aborted
@[simp] theorem turn_rxRequested (s : State) : (turn s).env.rxRequested = s.env.rxRequested :=
  (turn_agentsOnly s).rxRequested
@[simp] theorem turn_tracksThreshold (s : State) : (turn s).env.tracksThreshold = s.env.tracksThreshold :=
  (turn_agentsOnly s).tracks
@[simp] theorem turn_flushClearsOverflow (s : State) :
    (turn s).env.flushClearsOverflow = s.env.flushClearsOverflow := (turn_agentsOnly s).flushClears

/-- The turns of a poll leave the engine's registers as they are between two port operations (R32, R74). -/
@[simp] theorem turn_keeps_eng (s : State) : (turn s).eng = s.eng := (turn_agentsOnly s).eng

/-- A turn never shortens the receive FIFO (R75). -/
theorem turn_fifo_length (s : State) : s.env.rxFifo.length ≤ (turn s).env.rxFifo.length := by
  obtain ⟨x, hx⟩ := (turn_agentsOnly s).fifo
  simp [hx]

/-- A turn only appends to the receive FIFO (R61). -/
theorem turn_fifo (s : State) : ∃ extra, (turn s).env.rxFifo = s.env.rxFifo ++ extra := (turn_agentsOnly s).fifo

end Sys2Proof.Machine
end

