-- ==== Sys2Proof/Laws/Bits.lean ====
section
/-! SUPPORT. Bit fields as arithmetic on numbers, so that omega decides facts about cutting and joining them; and the symbols of packed
groups (R94, R95). -/

namespace Sys2Proof.Machine

/-- Joining is multiplication and addition. -/
theorem append_toNat {m n : Nat} (x : BitVec m) (y : BitVec n) : (x ++ y).toNat = x.toNat * 2 ^ n + y.toNat := by
  rw [BitVec.toNat_append, ← Nat.shiftLeft_add_eq_or_of_lt y.isLt, Nat.shiftLeft_eq]

/-- Cutting is division and remainder. -/
theorem extract_toNat {m : Nat} (x : BitVec m) (lo n : Nat) : (x.extractLsb' lo n).toNat = x.toNat / 2 ^ lo % 2 ^ n := by
  simp [BitVec.extractLsb'_toNat, Nat.shiftRight_eq_div_pow]

theorem symAt0_pack (a b : Sym) : symAt0 (packByte0 a b) = a := by
  apply BitVec.eq_of_toNat_eq
  have := a.isLt; have := b.isLt
  simp only [symAt0, packByte0, extract_toNat, append_toNat]
  omega

theorem symAt6_pack (a b c : Sym) : symAt6 (packByte0 a b) (packByte1 b c) = b := by
  apply BitVec.eq_of_toNat_eq
  have := a.isLt; have := b.isLt; have := c.isLt
  simp only [symAt6, packByte0, packByte1, extract_toNat, append_toNat]
  omega

theorem symAt4_pack (b c d : Sym) : symAt4 (packByte1 b c) (packByte2 c d) = c := by
  apply BitVec.eq_of_toNat_eq
  have := b.isLt; have := c.isLt; have := d.isLt
  simp only [symAt4, packByte2, packByte1, extract_toNat, append_toNat]
  omega

theorem symAt2_pack (c d : Sym) : symAt2 (packByte2 c d) = d := by
  apply BitVec.eq_of_toNat_eq
  have := c.isLt; have := d.isLt
  simp only [symAt2, packByte2, extract_toNat, append_toNat]
  omega

theorem symAt6_tail (a b : Sym) : symAt6 (packByte0 a b) (tailByte1 b) = b := by
  apply BitVec.eq_of_toNat_eq
  have := a.isLt; have := b.isLt
  simp only [symAt6, packByte0, tailByte1, extract_toNat, append_toNat, BitVec.toNat_ofNat]
  omega

theorem packByte0_syms (b0 b1 : Byte) : packByte0 (symAt0 b0) (symAt6 b0 b1) = b0 := by
  apply BitVec.eq_of_toNat_eq
  have := b0.isLt; have := b1.isLt
  simp only [symAt0, symAt6, packByte0, extract_toNat, append_toNat]
  omega

theorem packByte1_syms (b0 b1 b2 : Byte) : packByte1 (symAt6 b0 b1) (symAt4 b1 b2) = b1 := by
  apply BitVec.eq_of_toNat_eq
  have := b0.isLt; have := b1.isLt; have := b2.isLt
  simp only [symAt4, symAt6, packByte1, extract_toNat, append_toNat]
  omega

theorem packByte2_syms (b1 b2 : Byte) : packByte2 (symAt4 b1 b2) (symAt2 b2) = b2 := by
  apply BitVec.eq_of_toNat_eq
  have := b1.isLt; have := b2.isLt
  simp only [symAt4, symAt2, packByte2, extract_toNat, append_toNat]
  omega

/-- The symbols of a packed group are the four it was packed from (R95). -/
@[simp] theorem symbolsOf_groupBytes (a b c d : Sym) (rest : List Byte) :
    symbolsOf (groupBytes a b c d ++ rest) = a :: b :: c :: d :: symbolsOf rest := by
  simp [groupBytes, symbolsOf, symAt0_pack, symAt6_pack, symAt4_pack, symAt2_pack]

/-- A group is the three bytes its symbols were cut from (R72, R95). -/
theorem groupBytes_syms (b0 b1 b2 : Byte) :
    groupBytes (symAt0 b0) (symAt6 b0 b1) (symAt4 b1 b2) (symAt2 b2) = [b0, b1, b2] := by
  simp [groupBytes, packByte0_syms, packByte1_syms, packByte2_syms]

/-! ### Single bits of joined fields -/

theorem packByte0_bit (a b : Sym) (i : Nat) :
    (packByte0 a b).getLsbD i = if i < 2 then (b.extractLsb' 4 2).getLsbD i else a.getLsbD (i - 2) :=
  BitVec.getLsbD_append

theorem packByte1_bit (b c : Sym) (i : Nat) :
    (packByte1 b c).getLsbD i = if i < 4 then (c.extractLsb' 2 4).getLsbD i else (b.extractLsb' 0 4).getLsbD (i - 4) :=
  BitVec.getLsbD_append

theorem packByte2_bit (c d : Sym) (i : Nat) :
    (packByte2 c d).getLsbD i = if i < 6 then d.getLsbD i else (c.extractLsb' 0 2).getLsbD (i - 6) :=
  BitVec.getLsbD_append

theorem tailByte1_bit (x : Sym) (i : Nat) :
    (tailByte1 x).getLsbD i = if i < 4 then (0#4).getLsbD i else (x.extractLsb' 0 4).getLsbD (i - 4) :=
  BitVec.getLsbD_append

theorem symAt6_bit (b0 b1 : Byte) (i : Nat) :
    (symAt6 b0 b1).getLsbD i = if i < 4 then (b1.extractLsb' 4 4).getLsbD i else (b0.extractLsb' 0 2).getLsbD (i - 4) :=
  BitVec.getLsbD_append

theorem symAt4_bit (b1 b2 : Byte) (i : Nat) :
    (symAt4 b1 b2).getLsbD i = if i < 2 then (b2.extractLsb' 6 2).getLsbD i else (b1.extractLsb' 0 4).getLsbD (i - 2) :=
  BitVec.getLsbD_append

/-- The HDR24 number of three bytes (R90). -/
theorem header24_toNat (h0 h1 h2 : Byte) :
    (header24 h0 h1 h2).toNat = h0.toNat * 65536 + h1.toNat * 256 + h2.toNat := by
  simp only [header24, append_toNat]
  omega

/-- A byte is its two nibbles (R71). -/
theorem nibbles_append (b : Byte) : hiNibble b ++ loNibble b = b := by
  apply BitVec.eq_of_toNat_eq
  have := b.isLt
  simp only [hiNibble, loNibble, extract_toNat, append_toNat]
  omega

theorem hiNibble_append (v w : Nibble) : hiNibble (v ++ w) = v := by
  apply BitVec.eq_of_toNat_eq
  have := v.isLt; have := w.isLt
  simp only [hiNibble, extract_toNat, append_toNat]
  omega

theorem loNibble_append (v w : Nibble) : loNibble (v ++ w) = w := by
  apply BitVec.eq_of_toNat_eq
  have := v.isLt; have := w.isLt
  simp only [loNibble, extract_toNat, append_toNat]
  omega

end Sys2Proof.Machine
end

