-- ==== Sys2Proof/Laws/Decoder.lean ====
section
/-! SUPPORT. The LineDecoder's parts, each said once (R91 to R97, R120 to R123): when the values of a symbol list exist and what they
are, how values pair up, what a successful decode has been through, and that the engine's classification of a header window
runs the operation the window decodes to. -/

namespace Sys2Proof.Machine

/-! ### Values of symbols -/

/-- One bad symbol fails everything, and nothing else does (R122). -/
theorem valuesOf_eq_none (cb : Codebook) (xs : List Sym) : valuesOf cb xs = none ↔ ∃ x ∈ xs, valueOf cb x = none := by
  induction xs with
  | nil => simp [valuesOf]
  | cons x xs ih =>
    simp only [valuesOf, List.mem_cons, exists_eq_or_imp]
    rw [← ih]
    cases valueOf cb x <;> cases valuesOf cb xs <;> simp

theorem valuesOf_length (cb : Codebook) :
    ∀ (xs : List Sym) (vs : List Nibble), valuesOf cb xs = some vs → vs.length = xs.length
  | [], vs, h => by
    simp only [valuesOf, Option.some.injEq] at h
    simp [← h]
  | x :: xs, vs, h => by
    simp only [valuesOf] at h
    split at h
    · next hv hvs => cases h; simp [valuesOf_length cb xs _ hvs]
    · cases h

/-- The value at a place is the value of the symbol at that place (R120). -/
theorem valuesOf_get (cb : Codebook) :
    ∀ (xs : List Sym) (vs : List Nibble), valuesOf cb xs = some vs →
      ∀ (i : Nat) (v : Nibble), vs[i]? = some v → ∃ x, xs[i]? = some x ∧ valueOf cb x = some v
  | [], vs, h => by
    simp only [valuesOf, Option.some.injEq] at h
    subst h
    simp
  | x :: xs, vs, h => by
    simp only [valuesOf] at h
    split at h
    · next hv hvs =>
      cases h
      intro i v
      cases i with
      | zero => simp only [List.getElem?_cons_zero, Option.some.injEq]; rintro rfl; exact ⟨x, rfl, hv⟩
      | succ i => simpa using valuesOf_get cb xs _ hvs i v
    · cases h

/-- Row `i` of a table without repeats answers to its own word (R91). -/
theorem lookupFrom_getElem (cb : Codebook) (hn : cb.Nodup) (v i : Nat) (hi : i < cb.length) :
    lookupFrom cb v cb[i] = some (BitVec.ofNat 4 (v + i)) := by
  induction cb generalizing v i with
  | nil => simp at hi
  | cons c cb ih =>
    rw [List.nodup_cons] at hn
    cases i with
    | zero => simp [lookupFrom]
    | succ i =>
      have hi' : i < cb.length := by simpa using hi
      simp only [List.getElem_cons_succ, lookupFrom]
      rw [if_neg, ih hn.2 _ _ hi']
      · congr 2; omega
      · intro h; exact hn.1 (h ▸ List.getElem_mem hi')

/-! ### Pairs -/

theorem pairUp_length : ∀ vs : List Nibble, (pairUp vs).length = vs.length / 2
  | [] => rfl
  | [_] => by simp [pairUp]
  | _ :: _ :: r => by simp only [pairUp, List.length_cons, pairUp_length r]; omega

/-- Byte `k` is made of values `2k` and `2k + 1` (R71). -/
theorem pairUp_get : ∀ (vs : List Nibble) (k : Nat) (y : Byte), (pairUp vs)[k]? = some y →
    vs[2 * k]? = some (hiNibble y) ∧ vs[2 * k + 1]? = some (loNibble y)
  | [], k, y, h => by simp [pairUp] at h
  | [_], k, y, h => by simp [pairUp] at h
  | a :: b :: r, k, y, h => by
    cases k with
    | zero =>
      simp only [pairUp, List.getElem?_cons_zero, Option.some.injEq] at h
      subst h
      simp [hiNibble_append, loNibble_append]
    | succ k =>
      have := pairUp_get r k y (by simpa [pairUp] using h)
      simpa [Nat.mul_succ] using this

/-! ### DECODE -/

/-- What a successful DECODE has been through (R120). -/
theorem lineDecode_spec {s d : List Byte} (h : lineDecode s = some d) :
    s.length % 3 ≠ 1 ∧ ∃ vs, valuesOf Params.codebook (symbolsOf s) = some vs ∧ d = pairUp vs := by
  simp only [lineDecode, decodeWith] at h
  split at h
  · cases h
  · next hn =>
    simp only [Option.map_eq_some_iff] at h
    obtain ⟨vs, h1, h2⟩ := h
    exact ⟨hn, vs, h1, h2.symm⟩

/-- A decoded byte is the values of two neighbouring symbols (R94). -/
theorem lineDecode_get {s d : List Byte} (h : lineDecode s = some d) {k : Nat} {y : Byte} (hk : d[k]? = some y) :
    ∃ hi lo, (symbolsOf s)[2 * k]? = some hi ∧ (symbolsOf s)[2 * k + 1]? = some lo ∧
      valueOf Params.codebook hi = some (hiNibble y) ∧ valueOf Params.codebook lo = some (loNibble y) := by
  obtain ⟨-, vs, hvs, rfl⟩ := lineDecode_spec h
  obtain ⟨a, b⟩ := pairUp_get vs k y hk
  obtain ⟨p, hp, hp'⟩ := valuesOf_get _ _ _ hvs _ _ a
  obtain ⟨q, hq, hq'⟩ := valuesOf_get _ _ _ hvs _ _ b
  exact ⟨p, q, hp, hq, hp', hq'⟩

/-- A window decodes exactly when its four symbols are codewords (R97). -/
theorem lineDecode_window (h0 h1 h2 : Byte) : lineDecode [h0, h1, h2] = none ↔
    ¬ (isCodeword (symAt0 h0) && isCodeword (symAt6 h0 h1) && isCodeword (symAt4 h1 h2) && isCodeword (symAt2 h2)) = true := by
  simp [lineDecode, decodeWith, valuesOf_eq_none, symbolsOf, isCodeword, Option.isSome_iff_ne_none]
  tauto

/-- A window decodes to two bytes (R168). -/
theorem lineDecode_window_two {h0 h1 h2 : Byte} {d : List Byte} (h : lineDecode [h0, h1, h2] = some d) :
    ∃ l m, d = [l, m] := by
  obtain ⟨-, vs, hvs, rfl⟩ := lineDecode_spec h
  match vs, valuesOf_length _ _ _ hvs with
  | [_, _, _, _], _ => exact ⟨_, _, rfl⟩

/-! ### Header windows -/

/-- The HDR24 word of three bytes decodes to the row they match (R97). -/
theorem decode_headerWord (h0 h1 h2 : Byte) : decode (headerWord h0 h1 h2) = .ok (headerInstr h0 h1 h2) := by
  have a := h0.isLt; have b := h1.isLt; have c := h2.isLt
  have e := header24_toNat h0 h1 h2
  have f : ∀ v k (x : Byte), v >>> (16 - 8 * k) % 256 = x.toNat → headerByte v k = x := by
    intro v k x h; apply BitVec.eq_of_toNat_eq; simp [headerByte, h]
  simp only [headerWord, decode, decodeBits]
  rw [if_neg (by decide), if_pos trivial, if_pos (by omega)]
  rw [f _ 0 h0 (by rw [e, Nat.shiftRight_eq_div_pow]; omega), f _ 1 h1 (by rw [e, Nat.shiftRight_eq_div_pow]; omega),
    f _ 2 h2 (by rw [e, Nat.shiftRight_eq_div_pow]; omega)]

end Sys2Proof.Machine
end

