-- ==== Sys2Proof/Laws/Ops.lean ====
section
/-! SUPPORT. One lemma per shared operation that says what it can do, and that every operation keeps the form of the byte stores. -/

namespace Sys2Proof.Machine

/-! ### The FIFO read (R62, R63, R208) -/

/-- RD_FIFO that answers has taken the oldest bytes of the FIFO as the turn left it. -/
theorem rdFifo_spec {n : Nat} {s t : State} {bytes : List Byte} (h : rdFifo n s = some (bytes, t)) :
    n ≤ (turn s).env.rxFifo.length ∧ bytes = (turn s).env.rxFifo.take n ∧
      t = (turn s).setEnv { (turn s).env with rxFifo := (turn s).env.rxFifo.drop n } := by
  simp only [rdFifo] at h
  split at h
  · next hle => simp only [Option.some.injEq, Prod.mk.injEq] at h; exact ⟨hle, h.1.symm, h.2.symm⟩
  · cases h

theorem rdFifo_length {n : Nat} {s t : State} {bytes : List Byte} (h : rdFifo n s = some (bytes, t)) :
    bytes.length = n := by
  obtain ⟨hle, rfl, -⟩ := rdFifo_spec h
  simp [hle]

/-- RD_FIFO of no more bytes than the FIFO holds before the turn answers (R75). -/
theorem rdFifo_of_le {n : Nat} {s : State} (h : n ≤ s.env.rxFifo.length) :
    rdFifo n s = some ((turn s).env.rxFifo.take n,
      (turn s).setEnv { (turn s).env with rxFifo := (turn s).env.rxFifo.drop n }) := by
  simp only [rdFifo]
  rw [if_pos (h.trans (turn_fifo_length s))]

theorem rdFifo_eng {n : Nat} {s t : State} {bytes : List Byte} (h : rdFifo n s = some (bytes, t)) : t.eng = s.eng := by
  obtain ⟨-, -, rfl⟩ := rdFifo_spec h
  simp

theorem rdFifo_cfg {n : Nat} {s t : State} {bytes : List Byte} (h : rdFifo n s = some (bytes, t)) : t.cfg = s.cfg := by
  obtain ⟨-, -, rfl⟩ := rdFifo_spec h
  simp

/-! ### DrainSize (R183) -/

/-- A drain never asks for more than the sampled occupancy (R183). -/
theorem drainSize_le_occ (occ rem : Nat) : drainSize occ rem ≤ occ := by
  simp only [drainSize, Params.withheld]
  split
  · exact le_refl _
  · split <;> omega

/-- A drain short of the remainder happens only with less than the remainder in the FIFO (R183). -/
theorem drainSize_lt_rem {occ rem : Nat} (h : drainSize occ rem < rem) : occ < rem := by
  simp only [drainSize, Params.withheld] at h
  split at h
  · exact h
  · split at h <;> omega

/-! ### AppendBounded (R66) -/

/-- The count follows the buffer (R25). -/
theorem append_length (e : Engine) (total : Nat) (bs : List Byte) (h : e.buf.length = e.counter) :
    (e.append total bs).buf.length = (e.append total bs).counter := by
  simp [h, List.length_take]

/-- The count never passes the total (R25, R66). -/
theorem append_counter_le (e : Engine) (total : Nat) (bs : List Byte) (h : e.counter ≤ total) :
    (e.append total bs).counter ≤ total := by
  simp only [Engine.append_counter]
  omega

/-! ### Reads of registers that may be None (U17) -/

theorem readExpected_some {s : State} {n : Nat} (h : s.eng.expected = some n) : readExpected s = (n, s) := by
  simp [readExpected, h]

theorem readSyncTime_some {s : State} {n : Nat} (h : s.eng.syncTime = some n) : readSyncTime s = (n, s) := by
  simp [readSyncTime, h]

/-! ### The InitRx step (R143) -/

/-- The confirmation reads are turns and at most a log line (R145). -/
theorem confirmRx_agentsOnly (n : Nat) (s : State) : AgentsOnly s (confirmRx n s) := by
  induction n generalizing s with
  | zero => exact AgentsOnly.of_reports s _
  | succ n ih =>
    simp only [confirmRx]
    split
    · exact turn_agentsOnly s
    · exact (turn_agentsOnly s).trans (ih _)

/-! ### The byte stores keep their form (R25, R61) -/

theorem agents_keep_memory {s t : State} (h : AgentsOnly s t) (w : Memory.wf s) : Memory.wf t :=
  ⟨h.capacity w.1, by rw [h.eng]; exact w.2⟩

theorem turn_keeps_memory (s : State) (w : Memory.wf s) : Memory.wf (turn s) := agents_keep_memory (turn_agentsOnly s) w

theorem cmdFlushRx_keeps_memory (s : State) (w : Memory.wf s) : Memory.wf (cmdFlushRx s) := by
  refine ⟨by simp [cmdFlushRx], ?_⟩
  simpa [cmdFlushRx] using w.2

theorem cmdFlushTx_keeps_memory (s : State) (w : Memory.wf s) : Memory.wf (cmdFlushTx s) := turn_keeps_memory s w

theorem cmdSetThreshold_keeps_memory (v : Nat) (s : State) (w : Memory.wf s) : Memory.wf (cmdSetThreshold v s) :=
  turn_keeps_memory s w

theorem cmdSetLengthMode_keeps_memory (m : ChipLengthMode) (s : State) (w : Memory.wf s) :
    Memory.wf (cmdSetLengthMode m s) := turn_keeps_memory s w

theorem cmdEnterRx_keeps_memory (s : State) (w : Memory.wf s) : Memory.wf (cmdEnterRx s) := turn_keeps_memory s w

theorem rdFifo_keeps_memory {n : Nat} {s t : State} {bytes : List Byte} (h : rdFifo n s = some (bytes, t))
    (w : Memory.wf s) : Memory.wf t := by
  obtain ⟨-, -, rfl⟩ := rdFifo_spec h
  have w' := turn_keeps_memory s w
  refine ⟨?_, w'.2⟩
  simp only [State.setEnv_env, List.length_drop]
  have := w'.1
  omega

theorem appendBounded_keeps_memory (total : Nat) (bytes : List Byte) (s : State) (w : Memory.wf s) :
    Memory.wf (appendBounded total bytes s) :=
  ⟨w.1, append_length s.eng total bytes w.2⟩

theorem reset_memory_wf : Memory.wf State.reset := by decide

end Sys2Proof.Machine
end

