-- ==== Sys2Proof/Laws/Engine.lean ====
section
/-! SUPPORT. The engine's steps as equations that later proofs cite instead of unfolding them: a turn commutes with writes it does not
look at, one iteration of the drain loop, the completion, the WaitForData step, and how a step of the machine comes about. -/

namespace Sys2Proof.Machine

/-! ### Turns -/

/-- Steps of the other agents do not touch the schedule. -/
@[simp] theorem applyEvents_schedule (es : List Event) (s : State) : (applyEvents s es).schedule = s.schedule := by
  induction es generalizing s with
  | nil => rfl
  | cons e es ih =>
    simp only [applyEvents, List.foldl_cons] at ih ⊢
    rw [ih]
    cases e <;> try rfl
    simp only [applyEvent, consume]
    split
    · rfl
    · split <;> rfl

/-- A turn takes one batch (R74). -/
@[simp] theorem turn_schedule (s : State) : (turn s).schedule = s.schedule.tail := by
  unfold turn
  split
  · next h => simp [h]
  · next b r h => simp [h]

/-- A turn does not see the engine's registers (R32). -/
theorem turn_setEng (s : State) (e : Engine) : turn (s.setEng e) = (turn s).setEng e := by
  have one : ∀ (s : State) (ev : Event), applyEvent (s.setEng e) ev = (applyEvent s ev).setEng e := by
    intro s ev
    cases ev <;> try rfl
    simp only [applyEvent, consume, State.setEng_plat]
    split
    · rfl
    · split <;> rfl
  have all : ∀ (es : List Event) (s : State), applyEvents (s.setEng e) es = (applyEvents s es).setEng e := by
    intro es
    induction es with
    | nil => intro s; rfl
    | cons a es ih => intro s; simp only [applyEvents, List.foldl_cons] at ih ⊢; rw [one, ih]
  simp only [turn, State.setEng_schedule]
  split
  · rfl
  · exact all _ (s.setSchedule _)

/-! ### ReadData -/

/-- The state after a drain of `n` bytes, read from the FIFO as the turn before the read left it (R62, R66). -/
def drained (total n : Nat) (s : State) : State :=
  appendBounded total (s.env.rxFifo.take n) (s.setEnv { s.env with rxFifo := s.env.rxFifo.drop n })

/-- One iteration of the drain loop (R180); its read never underflows (R75). -/
theorem drainLoop_succ (total fuel : Nat) (s : State) : drainLoop total (fuel + 1) s =
    if (turn s).env.overflowFlag = true then raiseAbort .rxOverflow (turn s)
    else if s.eng.counter = total then complete (turn s)
    else
      let n := drainSize (turn (turn s)).env.rxFifo.length (total - s.eng.counter)
      let t := drained total n (turn (turn (turn s)))
      if n = 0 then returnNoFrame (turn (turn s))
      else if t.eng.counter = total then complete t
      else drainLoop total fuel t := by
  rw [drainLoop]
  simp only [turn_keeps_eng, inOccupancy]
  rw [rdFifo_of_le (drainSize_le_occ _ _)]
  rfl

/-- The state of a completion after its final drain and its RSSI sample's turn (R188). -/
def residualDropped (s : State) : State :=
  turn (if 0 < (turn s).env.rxFifo.length then
      (turn (turn s)).setEnv { (turn (turn s)).env with
        rxFifo := (turn (turn s)).env.rxFifo.drop (turn s).env.rxFifo.length }
    else turn s)

@[simp] theorem residualDropped_eng (s : State) : (residualDropped s).eng = s.eng := by
  unfold residualDropped
  split <;> simp

/-- Complete() (R188); its read never underflows (R75). -/
theorem complete_eq (s : State) : complete s =
    match frameBytes s.eng with
    | none => raiseAbort .lineDecodeFailure (residualDropped s)
    | some out =>
      let p := readSyncTime (residualDropped s)
      returnFrame ⟨out, (residualDropped s).env.rssi, p.1, p.2.eng.mode, p.2.eng.block⟩ (p.2.setEng (p.2.eng.goto .initRx)) := by
  rw [complete]
  dsimp only [inOccupancy, inRssi, residualDropped]
  rw [rdFifo_of_le (le_refl _)]
  by_cases h : 0 < (turn s).env.rxFifo.length
  · cases hf : frameBytes s.eng <;> simp only [if_pos h, turn_keeps_eng, State.setEnv_eng, hf]
  · cases hf : frameBytes s.eng <;> simp only [if_neg h, turn_keeps_eng, hf]

/-- The ReadData step with `expected` at a number. -/
theorem execPollReadData_eq (s : State) (total : Nat) (h : s.eng.expected = some total) :
    exec .pollReadData s = drainLoop total (drainFuel total s) s := by
  simp [exec, execPollReadData, readDataStep, readExpected_some h]

/-! ### WaitForData -/

/-- The WaitForData step with `syncTime` at a number (R160). -/
theorem execPollWaitForData_eq (s : State) (t0 : Nat) (h : s.eng.syncTime = some t0) : exec .pollWaitForData s =
    if s.cfg.syncTimeoutMs < (turn s).env.now - t0 then raiseAbort .syncTimeout (turn s)
    else if (turn (turn s)).env.overflowFlag = true then raiseAbort .rxOverflow (turn (turn s))
    else if inThreshold (turn (turn (turn s))) = true then readHeader (turn (turn (turn s)))
    else returnNoFrame (turn (turn (turn s))) := by
  simp [exec, execPollWaitForData, waitForDataStep, readSyncTime_some h]

/-- What follows the header read is the operation the window decodes to (R97, R160, R165; log 6). -/
theorem runHeader_eq_exec (h0 h1 h2 : Byte) (s : State) : runHeader h0 h1 h2 s = exec (headerInstr h0 h1 h2) s := by
  unfold runHeader classify headerInstr
  split_ifs with a b c
  · subst a b; rfl
  · subst a c; rfl
  · rfl
  · by_cases d : (isCodeword (symAt0 h0) && isCodeword (symAt6 h0 h1) && isCodeword (symAt4 h1 h2) && isCodeword (symAt2 h2)) = true
    · obtain ⟨x, hx⟩ := Option.ne_none_iff_exists'.1 (fun e => (lineDecode_window h0 h1 h2).1 e d)
      obtain ⟨l, m, rfl⟩ := lineDecode_window_two hx
      simp only [d, hx, if_true]
      simp [exec, execHdrT, groupBytes_syms, hx]
    · simp only [(lineDecode_window h0 h1 h2).2 d, d]
      rfl

end Sys2Proof.Machine
end

