-- ==== Sys2Proof/Laws/PerInstr.lean ====
section
/-! SUPPORT. The family FormatWidth: an operation's presented form has the width its row's format gives it (R90, R107). -/

namespace Sys2Proof.Laws

/-- The width in bits of a format; CALL is not a format of bits (R90). -/
def formatWidth : Format → Nat
  | .sym6 => 6
  | .pair12 => 12
  | .group24 => 24
  | .hdr24 => 24
  | .state2 => 2
  | .call => 0

/-- The width of a presented form; 0 for a call by name. -/
def encodedWidth : Encoded → Nat
  | .bits width _ => width
  | .call _ _ => 0

/-- The presented form of `i` has the width of its format. -/
def FormatWidth.Statement (i : Instr) : Prop := encodedWidth (encode i) = formatWidth i.format

theorem FormatWidth.inv00 : FormatWidth.Statement .inv00 := rfl
theorem FormatWidth.inv01 : FormatWidth.Statement .inv01 := rfl
theorem FormatWidth.inv02 : FormatWidth.Statement .inv02 := rfl
theorem FormatWidth.inv03 : FormatWidth.Statement .inv03 := rfl
theorem FormatWidth.inv04 : FormatWidth.Statement .inv04 := rfl
theorem FormatWidth.inv05 : FormatWidth.Statement .inv05 := rfl
theorem FormatWidth.inv06 : FormatWidth.Statement .inv06 := rfl
theorem FormatWidth.inv07 : FormatWidth.Statement .inv07 := rfl
theorem FormatWidth.inv08 : FormatWidth.Statement .inv08 := rfl
theorem FormatWidth.inv09 : FormatWidth.Statement .inv09 := rfl
theorem FormatWidth.inv0A : FormatWidth.Statement .inv0A := rfl
theorem FormatWidth.sym3 : FormatWidth.Statement .sym3 := rfl
theorem FormatWidth.inv0C : FormatWidth.Statement .inv0C := rfl
theorem FormatWidth.sym1 : FormatWidth.Statement .sym1 := rfl
theorem FormatWidth.sym2 : FormatWidth.Statement .sym2 := rfl
theorem FormatWidth.inv0F : FormatWidth.Statement .inv0F := rfl
theorem FormatWidth.inv10 : FormatWidth.Statement .inv10 := rfl
theorem FormatWidth.inv11 : FormatWidth.Statement .inv11 := rfl
theorem FormatWidth.inv12 : FormatWidth.Statement .inv12 := rfl
theorem FormatWidth.sym7 : FormatWidth.Statement .sym7 := rfl
theorem FormatWidth.inv14 : FormatWidth.Statement .inv14 := rfl
theorem FormatWidth.inv15 : FormatWidth.Statement .inv15 := rfl
theorem FormatWidth.sym0 : FormatWidth.Statement .sym0 := rfl
theorem FormatWidth.inv17 : FormatWidth.Statement .inv17 := rfl
theorem FormatWidth.inv18 : FormatWidth.Statement .inv18 := rfl
theorem FormatWidth.sym5 : FormatWidth.Statement .sym5 := rfl
theorem FormatWidth.sym6 : FormatWidth.Statement .sym6 := rfl
theorem FormatWidth.inv1B : FormatWidth.Statement .inv1B := rfl
theorem FormatWidth.sym4 : FormatWidth.Statement .sym4 := rfl
theorem FormatWidth.inv1D : FormatWidth.Statement .inv1D := rfl
theorem FormatWidth.inv1E : FormatWidth.Statement .inv1E := rfl
theorem FormatWidth.inv1F : FormatWidth.Statement .inv1F := rfl
theorem FormatWidth.inv20 : FormatWidth.Statement .inv20 := rfl
theorem FormatWidth.inv21 : FormatWidth.Statement .inv21 := rfl
theorem FormatWidth.inv22 : FormatWidth.Statement .inv22 := rfl
theorem FormatWidth.symB : FormatWidth.Statement .symB := rfl
theorem FormatWidth.inv24 : FormatWidth.Statement .inv24 := rfl
theorem FormatWidth.sym9 : FormatWidth.Statement .sym9 := rfl
theorem FormatWidth.symA : FormatWidth.Statement .symA := rfl
theorem FormatWidth.inv27 : FormatWidth.Statement .inv27 := rfl
theorem FormatWidth.inv28 : FormatWidth.Statement .inv28 := rfl
theorem FormatWidth.symF : FormatWidth.Statement .symF := rfl
theorem FormatWidth.inv2A : FormatWidth.Statement .inv2A := rfl
theorem FormatWidth.inv2B : FormatWidth.Statement .inv2B := rfl
theorem FormatWidth.sym8 : FormatWidth.Statement .sym8 := rfl
theorem FormatWidth.inv2D : FormatWidth.Statement .inv2D := rfl
theorem FormatWidth.inv2E : FormatWidth.Statement .inv2E := rfl
theorem FormatWidth.inv2F : FormatWidth.Statement .inv2F := rfl
theorem FormatWidth.inv30 : FormatWidth.Statement .inv30 := rfl
theorem FormatWidth.symD : FormatWidth.Statement .symD := rfl
theorem FormatWidth.symE : FormatWidth.Statement .symE := rfl
theorem FormatWidth.inv33 : FormatWidth.Statement .inv33 := rfl
theorem FormatWidth.symC : FormatWidth.Statement .symC := rfl
theorem FormatWidth.inv35 : FormatWidth.Statement .inv35 := rfl
theorem FormatWidth.inv36 : FormatWidth.Statement .inv36 := rfl
theorem FormatWidth.inv37 : FormatWidth.Statement .inv37 := rfl
theorem FormatWidth.inv38 : FormatWidth.Statement .inv38 := rfl
theorem FormatWidth.inv39 : FormatWidth.Statement .inv39 := rfl
theorem FormatWidth.inv3A : FormatWidth.Statement .inv3A := rfl
theorem FormatWidth.inv3B : FormatWidth.Statement .inv3B := rfl
theorem FormatWidth.inv3C : FormatWidth.Statement .inv3C := rfl
theorem FormatWidth.inv3D : FormatWidth.Statement .inv3D := rfl
theorem FormatWidth.inv3E : FormatWidth.Statement .inv3E := rfl
theorem FormatWidth.inv3F : FormatWidth.Statement .inv3F := rfl
theorem FormatWidth.hdrCA (l : Byte) : FormatWidth.Statement (.hdrCA l) := rfl
theorem FormatWidth.hdrCB (l : Byte) : FormatWidth.Statement (.hdrCB l) := rfl
theorem FormatWidth.hdrCInvalid (h1 h2 : Byte) : FormatWidth.Statement (.hdrCInvalid h1 h2) := rfl
theorem FormatWidth.hdrT (a b c d : Sym) : FormatWidth.Statement (.hdrT a b c d) := rfl
theorem FormatWidth.hdrUnclassifiable (a b c d : Sym) : FormatWidth.Statement (.hdrUnclassifiable a b c d) := rfl
theorem FormatWidth.pollInitRx : FormatWidth.Statement .pollInitRx := rfl
theorem FormatWidth.pollWaitForSync : FormatWidth.Statement .pollWaitForSync := rfl
theorem FormatWidth.pollWaitForData : FormatWidth.Statement .pollWaitForData := rfl
theorem FormatWidth.pollReadData : FormatWidth.Statement .pollReadData := rfl
theorem FormatWidth.decode (s : List Byte) : FormatWidth.Statement (.decode s) := rfl
theorem FormatWidth.encodedSize (k : Nat) : FormatWidth.Statement (.encodedSize k) := rfl
theorem FormatWidth.modeTPacketSize (l : Byte) : FormatWidth.Statement (.modeTPacketSize l) := rfl
theorem FormatWidth.encode (d : List Byte) : FormatWidth.Statement (.encode d) := rfl

end Sys2Proof.Laws
end

