-- ==== Sys2Proof/Laws/Step.lean ====
section
/-! SUPPORT. How a step that answers a next state comes about, and what the host's part of it keeps. -/

namespace Sys2Proof.Machine

/-- A step that answers has decoded an operation, no poll after an aborted setup, run it, and, for a poll, accepted its result (R140,
R250, R273). -/
theorem step_next {s t : State} (h : step s = .next t) :
    ∃ i u, decode (fetchWord s) = .ok i ∧ (i.isPoll = true → s.plat.setupAborted = false) ∧
      exec i (beginStep i s) = .next u ∧ t = (if i.isPoll then acceptResult u else u) := by
  unfold step at h
  split at h
  · cases h
  · next i hi =>
    split at h
    · cases h
    · next ha =>
      have hp : i.isPoll = true → s.plat.setupAborted = false := by simpa using ha
      cases hx : exec i (beginStep i s) with
      | next u => rw [hx] at h; cases h; exact ⟨i, u, hi, hp, hx, rfl⟩
      | fault => rw [hx] at h; cases h
      | refused => rw [hx] at h; cases h

/-- The host's acceptance of a result touches the queue and the diagnostics alone (R250, R255). -/
theorem acceptResult_keeps (u : State) :
    (acceptResult u).env = u.env ∧ (acceptResult u).cfg = u.cfg ∧ (acceptResult u).eng = u.eng ∧
      (acceptResult u).result = u.result ∧ (acceptResult u).request = u.request := by
  unfold acceptResult
  split
  · simp
  · unfold pushFrame
    split <;> simp

end Sys2Proof.Machine
end

