-- ==== Sys2Proof/Tests/Slice0.lean ====
section
/-! SUPPORT. The model's own tests: the checks of WellFormed, a word written out for every row, the spec's vectors
(`95_test_vectors.md`, named in the comments), and a concrete state for the hypotheses of every statement in
Certificates/Slice0/Obligations.lean (`witness_…`). Expected values come from the spec. -/

namespace Sys2Proof.Tests

open Sys2Proof.Machine

/-! ### Helpers -/

/-- Does the outcome give a next state with this property? -/
def onNext (p : State → Bool) : Host.Outcome State Fault Refusal → Bool
  | .next t => p t
  | _ => false

theorem exists_next {o : Host.Outcome State Fault Refusal} {p : State → Bool} (h : onNext p o = true) :
    ∃ t, o = .next t ∧ p t = true := by
  cases o with
  | next t => exact ⟨t, rfl, h⟩
  | fault f => cases h
  | refused r => cases h

/-- The reset state with this FIFO. -/
def withFifo (fifo : List Byte) (s : State) : State := s.setEnv { s.env with rxFifo := fifo }

/-- The reset state with these coming steps of the other agents. -/
def scheduled (l : List (List Event)) (s : State) : State := s.setSchedule l

/-- In WaitForSync, armed as the vectors have it. -/
def scanning (fifo : List Byte) (sync overflow : Bool) : State :=
  { State.reset with
    eng := { Engine.reset with state := .waitForSync, firstInitDone := true }
    env := { Env.reset with rxFifo := fifo, fifoThr := 4, syncLine := sync, overflowFlag := overflow, now := 100 } }

/-- In WaitForData since time 400, armed as the vectors have it. -/
def awaiting (now : Nat) (overflow : Bool) (fifo : List Byte) : State :=
  { State.reset with
    eng := { Engine.reset with state := .waitForData, syncTime := some 400, firstInitDone := true }
    env := { Env.reset with rxFifo := fifo, fifoThr := 4, overflowFlag := overflow, now := now } }

/-- In ReadData since time 700, with this header and these bytes. -/
def reading (m : Mode) (k : Block) (l : Byte) (total : Nat) (buf fifo : List Byte) : State :=
  { State.reset with
    eng := { state := .readData, buf := buf, counter := buf.length, lengthField := l, expected := some total,
             lengthMode := .fixed, mode := m, block := k, syncTime := some 700, firstInitDone := true }
    env := { Env.reset with rxFifo := fifo, fifoThr := 1, chipLengthMode := .fixed (BitVec.ofNat 8 total), now := 701 } }

/-- A Block B frame of 13 bytes with its header read. -/
def readingB (fifo : List Byte) : State := reading .c .b 10#8 13 [0x54#8, 0x3D#8, 10#8] fifo

/-- A frame to queue. -/
def frame (n : Nat) : RawFrame := ⟨[BitVec.ofNat 8 n], -70, n, .c, .b⟩

/-- The reset state with `n` queued frames. -/
def queued (n : Nat) : State := State.reset.setPlat { Platform.reset with queue := (List.range n).map frame }

/-! ### WellFormed: an ill-formed term for each check -/

/-- R97: HDR_C_INVALID with the Block A marker, with the Block B marker, and with neither. -/
theorem test_wf_hdrCInvalid :
    (Instr.hdrCInvalid 0xCD#8 5#8).wf = false ∧ (Instr.hdrCInvalid 0x3D#8 5#8).wf = false ∧
      (Instr.hdrCInvalid 0xAA#8 5#8).wf = true := by decide

/-- R97: HDR_T with a symbol that is no codeword in each of the four places, and with the Mode C preamble as its first byte. -/
theorem test_wf_hdrT :
    (Instr.hdrT 0x00#6 0x16#6 0x16#6 0x16#6).wf = false ∧ (Instr.hdrT 0x16#6 0x00#6 0x16#6 0x16#6).wf = false ∧
      (Instr.hdrT 0x16#6 0x16#6 0x00#6 0x16#6).wf = false ∧ (Instr.hdrT 0x16#6 0x16#6 0x16#6 0x00#6).wf = false ∧
      (Instr.hdrT 0x15#6 0x0D#6 0x16#6 0x16#6).wf = false ∧ (Instr.hdrT 0x16#6 0x0D#6 0x16#6 0x0D#6).wf = true := by
  decide

/-- R97: HDR_UNCLASSIFIABLE with four codewords, and with the Mode C preamble as its first byte. -/
theorem test_wf_hdrUnclassifiable :
    (Instr.hdrUnclassifiable 0x16#6 0x0D#6 0x16#6 0x0D#6).wf = false ∧
      (Instr.hdrUnclassifiable 0x15#6 0x0D#6 0x16#6 0x16#6).wf = false ∧
      (Instr.hdrUnclassifiable 0x16#6 0x0D#6 0x16#6 0x0F#6).wf = true := by decide

/-! ### Decode: every row's word, written out from the tables of R92, R93, R97 and R101 -/

/-- R92: the 16 codewords. -/
theorem test_decode_codewords : ∀ p ∈ [(0b010110, Instr.sym0), (0b001101, Instr.sym1), (0b001110, Instr.sym2), (0b001011, Instr.sym3),
    (0b011100, Instr.sym4), (0b011001, Instr.sym5), (0b011010, Instr.sym6), (0b010011, Instr.sym7),
    (0b101100, Instr.sym8), (0b100101, Instr.sym9), (0b100110, Instr.symA), (0b100011, Instr.symB),
    (0b110100, Instr.symC), (0b110001, Instr.symD), (0b110010, Instr.symE), (0b101001, Instr.symF)],
    decode (.bits 6 p.1) = .ok p.2 := by decide

/-- R93: the 48 others. -/
theorem test_decode_invalid_symbols : ∀ p ∈ [(0b000000, Instr.inv00), (0b000001, Instr.inv01), (0b000010, Instr.inv02), (0b000011, Instr.inv03),
    (0b000100, Instr.inv04), (0b000101, Instr.inv05), (0b000110, Instr.inv06), (0b000111, Instr.inv07),
    (0b001000, Instr.inv08), (0b001001, Instr.inv09), (0b001010, Instr.inv0A), (0b001100, Instr.inv0C),
    (0b001111, Instr.inv0F), (0b010000, Instr.inv10), (0b010001, Instr.inv11), (0b010010, Instr.inv12),
    (0b010100, Instr.inv14), (0b010101, Instr.inv15), (0b010111, Instr.inv17), (0b011000, Instr.inv18),
    (0b011011, Instr.inv1B), (0b011101, Instr.inv1D), (0b011110, Instr.inv1E), (0b011111, Instr.inv1F),
    (0b100000, Instr.inv20), (0b100001, Instr.inv21), (0b100010, Instr.inv22), (0b100100, Instr.inv24),
    (0b100111, Instr.inv27), (0b101000, Instr.inv28), (0b101010, Instr.inv2A), (0b101011, Instr.inv2B),
    (0b101101, Instr.inv2D), (0b101110, Instr.inv2E), (0b101111, Instr.inv2F), (0b110000, Instr.inv30),
    (0b110011, Instr.inv33), (0b110101, Instr.inv35), (0b110110, Instr.inv36), (0b110111, Instr.inv37),
    (0b111000, Instr.inv38), (0b111001, Instr.inv39), (0b111010, Instr.inv3A), (0b111011, Instr.inv3B),
    (0b111100, Instr.inv3C), (0b111101, Instr.inv3D), (0b111110, Instr.inv3E), (0b111111, Instr.inv3F)],
    decode (.bits 6 p.1) = .ok p.2 := by decide

/-- R97: one window for each of the five patterns: `54 CD 05`, `54 3D 0A`, `54 AA 05`, `58 D5 8D`, `58 D5 8F`. -/
theorem test_decode_headers :
    decode (.bits 24 0b010101001100110100000101) = .ok (.hdrCA 5#8) ∧
    decode (.bits 24 0b010101000011110100001010) = .ok (.hdrCB 10#8) ∧
    decode (.bits 24 0b010101001010101000000101) = .ok (.hdrCInvalid 0xAA#8 5#8) ∧
    decode (.bits 24 0b010110001101010110001101) = .ok (.hdrT 0b010110#6 0b001101#6 0b010110#6 0b001101#6) ∧
    decode (.bits 24 0b010110001101010110001111) =
      .ok (.hdrUnclassifiable 0b010110#6 0b001101#6 0b010110#6 0b001111#6) := by decide

/-- R97, R98, V-CLS-14, V-CLS-15, V-CLS-23: the order of the patterns, and windows at the edges. -/
theorem test_decode_headers_in_order :
    decode (.bits 24 0x5454CD) = .ok (.hdrCInvalid 0x54#8 0xCD#8) ∧
    decode (.bits 24 0x541658) = .ok (.hdrCInvalid 0x16#8 0x58#8) ∧
    decode (.bits 24 0x000000) = .ok (.hdrUnclassifiable 0#6 0#6 0#6 0#6) ∧
    decode (.bits 24 0xCD0544) = .ok (.hdrUnclassifiable 0b110011#6 0b010000#6 0b010101#6 0b000100#6) := by decide

/-- R101. -/
theorem test_decode_polls :
    decode (.bits 2 0b00) = .ok .pollInitRx ∧ decode (.bits 2 0b01) = .ok .pollWaitForSync ∧
    decode (.bits 2 0b10) = .ok .pollWaitForData ∧ decode (.bits 2 0b11) = .ok .pollReadData := by decide

/-- R107: the operations called by name. -/
theorem test_decode_calls :
    decode (.call .decode (.bytes [0x58#8, 0xD0#8])) = .ok (.decode [0x58#8, 0xD0#8]) ∧
    decode (.call .encodedSize (.size 288)) = .ok (.encodedSize 288) ∧
    decode (.call .modeTPacketSize (.byte 5#8)) = .ok (.modeTPacketSize 5#8) ∧
    decode (.call .encode (.bytes [1#8])) = .ok (.encode [1#8]) := by decide

/-- What is no operation is rejected, each by its reason. -/
theorem test_decode_rejects :
    decode (.bits 7 0) = .error (.noSuchWidth 7) ∧ decode (.bits 6 64) = .error (.valueTooWide 6 64) ∧
    decode (.bits 2 4) = .error (.valueTooWide 2 4) ∧ decode (.bits 24 0x1000000) = .error (.valueTooWide 24 0x1000000) ∧
    decode (.call .decode (.size 3)) = .error (.wrongOperand .decode) := by decide

/-- The host's words (logs 3, 4). -/
theorem test_table_words :
    decodeTableWord 8 0b010110 = some .sym0 ∧ decodeTableWord 8 0b111111 = some .inv3F ∧
    decodeTableWord 8 0b11 = some .pollReadData ∧ decodeTableWord 24 0x54CD05 = some (.hdrCA 5#8) ∧
    decodeTableWord 0 0 = none := by decide

/-! ### The LineDecoder -/

/-- V-DEC-1 to V-DEC-20. -/
theorem test_decode_vectors : ∀ p ∈ [
    (([] : List Byte), some ([] : List Byte)), ([0x58#8, 0xD0#8], some [0x01#8]),
    ([0x58#8, 0xD5#8, 0x8D#8], some [0x01#8, 0x01#8]), ([0x58#8, 0xD5#8, 0x8D#8, 0x00#8], none), ([0x58#8], none),
    ([0x54#8, 0xCD#8, 0x05#8], none), ([0x58#8, 0xDF#8], some [0x01#8]), ([0x58#8, 0xD5#8, 0x8F#8], none),
    ([0xFF#8, 0xFF#8, 0xFF#8], none), ([0x00#8, 0x00#8, 0x00#8], none), ([0x1C#8, 0x71#8, 0xC7#8], none),
    ([0x58#8, 0xD3#8, 0x8B#8, 0x71#8, 0x96#8, 0x93#8, 0xB2#8, 0x59#8, 0xA3#8, 0xD3#8, 0x1C#8, 0xA9#8],
      some [0x01#8, 0x23#8, 0x45#8, 0x67#8, 0x89#8, 0xAB#8, 0xCD#8, 0xEF#8]),
    ([0xA6#8, 0x90#8], some [0xFF#8]), ([0x34#8, 0xE2#8, 0xDC#8, 0x65#8, 0xA0#8], some [0x12#8, 0x34#8, 0x56#8]),
    ([0x58#8, 0xE7#8, 0x1C#8, 0x94#8, 0xB3#8, 0x4E#8, 0x2D#8, 0xC0#8],
      some [0x02#8, 0x44#8, 0x93#8, 0x12#8, 0x34#8]),
    ([0x58#8, 0xD5#8, 0x8D#8, 0x35#8, 0x63#8, 0x4D#8], some [0x01#8, 0x01#8, 0x10#8, 0x11#8]),
    ([0x59#8, 0x65#8], some [0x00#8]), ([0x58#8, 0xD5#8, 0x8D#8, 0x58#8, 0xD5#8, 0x8D#8, 0x58#8], none),
    ([0x58#8, 0xD5#8, 0x8D#8, 0x58#8, 0x40#8], none),
    ([0x58#8, 0xD5#8, 0x8D#8, 0x58#8, 0xD4#8], some [0x01#8, 0x01#8, 0x01#8])],
    lineDecode p.1 = p.2 := by decide

/-- V-ENC-1 to V-ENC-8. -/
theorem test_encode_vectors : ∀ p ∈ [
    (([] : List Byte), ([] : List Byte)), ([0x01#8], [0x58#8, 0xD0#8]),
    ([0x01#8, 0x01#8], [0x58#8, 0xD5#8, 0x8D#8]), ([0x00#8], [0x59#8, 0x60#8]),
    ([0x01#8, 0x01#8, 0x10#8, 0x11#8], [0x58#8, 0xD5#8, 0x8D#8, 0x35#8, 0x63#8, 0x4D#8]),
    ([0xFF#8], [0xA6#8, 0x90#8]), ([0x12#8, 0x34#8, 0x56#8], [0x34#8, 0xE2#8, 0xDC#8, 0x65#8, 0xA0#8]),
    ([0x01#8, 0x23#8, 0x45#8, 0x67#8, 0x89#8, 0xAB#8, 0xCD#8, 0xEF#8],
      [0x58#8, 0xD3#8, 0x8B#8, 0x71#8, 0x96#8, 0x93#8, 0xB2#8, 0x59#8, 0xA3#8, 0xD3#8, 0x1C#8, 0xA9#8])],
    lineEncode p.1 = p.2 := by decide

/-- V-SIZE. -/
theorem test_encoded_size : (List.range 10).map encodedSize = [0, 2, 3, 5, 6, 8, 9, 11, 12, 14] ∧
    encodedSize 64 = 96 ∧ encodedSize 288 = 432 := by decide

/-- V-MTPS. -/
theorem test_mode_t_packet_size :
    [0#8, 1#8, 2#8, 5#8, 6#8, 15#8, 16#8, 17#8, 32#8, 149#8, 150#8, 200#8, 255#8].map modeTPacketSize =
      [1, 4, 5, 8, 9, 18, 19, 22, 37, 170, 171, 227, 288] := by decide

/-- V-MTPS: the three totals. -/
theorem test_expected_totals :
    [0#8, 5#8, 16#8, 17#8, 224#8, 225#8, 255#8].map expectedBlockA = [3, 10, 21, 24, 255, 258, 290] ∧
    [0#8, 10#8, 252#8, 253#8, 255#8].map expectedBlockB = [3, 13, 255, 256, 258] ∧
    [0#8, 1#8, 2#8, 149#8, 150#8, 255#8].map expectedModeT = [2, 6, 8, 255, 257, 432] := by decide

/-- The operations answer with them (V-DEC-2, V-DEC-5, V-ENC-2, R125, R126). -/
theorem test_calls_answer :
    onNext (fun t => t.callResult = .bytes [0x01#8]) (exec (.decode [0x58#8, 0xD0#8]) State.reset) = true ∧
    onNext (fun t => t.callResult = .fail) (exec (.decode [0x58#8]) State.reset) = true ∧
    onNext (fun t => t.callResult = .bytes [0x58#8, 0xD0#8]) (exec (.encode [0x01#8]) State.reset) = true ∧
    onNext (fun t => t.callResult = .size 432) (exec (.encodedSize 288) State.reset) = true ∧
    onNext (fun t => t.callResult = .size 8) (exec (.modeTPacketSize 5#8) State.reset) = true := by decide

/-- R92, R93: a codeword's value, and Fail for the four unused words of weight three. -/
theorem test_symbols_answer :
    onNext (fun t => t.callResult = .nibble 0x0#4) (exec .sym0 State.reset) = true ∧
    onNext (fun t => t.callResult = .nibble 0x1#4) (exec .sym1 State.reset) = true ∧
    onNext (fun t => t.callResult = .nibble 0x9#4) (exec .sym9 State.reset) = true ∧
    onNext (fun t => t.callResult = .fail) (exec .inv07 State.reset) = true ∧
    onNext (fun t => t.callResult = .fail) (exec .inv38 State.reset) = true := by decide

/-! ### Headers -/

/-- V-CLS-1 to V-CLS-23. -/
theorem test_classify_vectors :
    classify 0x54#8 0xCD#8 0x05#8 = some ⟨.c, .a, 5#8, 10⟩ ∧ classify 0x54#8 0xCD#8 0x00#8 = some ⟨.c, .a, 0#8, 3⟩ ∧
    classify 0x54#8 0xCD#8 0x11#8 = some ⟨.c, .a, 17#8, 24⟩ ∧ classify 0x54#8 0xCD#8 0xFF#8 = some ⟨.c, .a, 255#8, 290⟩ ∧
    classify 0x54#8 0x3D#8 0x0A#8 = some ⟨.c, .b, 10#8, 13⟩ ∧ classify 0x54#8 0x3D#8 0xFD#8 = some ⟨.c, .b, 253#8, 256⟩ ∧
    classify 0x54#8 0xAA#8 0x05#8 = none ∧ classify 0x54#8 0x54#8 0xCD#8 = none ∧ classify 0x54#8 0x16#8 0x58#8 = none ∧
    classify 0x58#8 0xD5#8 0x8D#8 = some ⟨.t, .unknown, 1#8, 6⟩ ∧
    classify 0x59#8 0x65#8 0x96#8 = some ⟨.t, .unknown, 0#8, 2⟩ ∧
    classify 0x58#8 0xE7#8 0x1C#8 = some ⟨.t, .unknown, 2#8, 8⟩ ∧
    classify 0x95#8 0x95#8 0x96#8 = some ⟨.t, .unknown, 149#8, 255⟩ ∧
    classify 0x95#8 0xA5#8 0x96#8 = some ⟨.t, .unknown, 150#8, 257⟩ ∧
    classify 0xA6#8 0x95#8 0x96#8 = some ⟨.t, .unknown, 255#8, 432⟩ ∧
    classify 0x58#8 0xD5#8 0x8F#8 = none ∧ classify 0x00#8 0x00#8 0x00#8 = none ∧ classify 0xCD#8 0x05#8 0x44#8 = none := by
  decide

/-- V-CLS-5, V-CLS-6: 255 is programmed as Fixed, 258 is not. -/
theorem test_hdrCA_ceiling :
    onNext (fun t => t.eng.lengthMode = .fixed && t.env.chipLengthMode = .fixed 255 && t.env.fifoThr = 1)
      (exec (.hdrCA 224#8) (awaiting 410 false [])) = true ∧
    onNext (fun t => t.eng.lengthMode = .infinite && t.env.chipLengthMode = .infinite && t.env.fifoThr = 4)
      (exec (.hdrCA 225#8) (awaiting 410 false [])) = true := by decide

/-- V-CLS-10, V-CLS-11: 255 is programmed as Fixed, 256 is not. -/
theorem test_hdrCB_ceiling :
    onNext (fun t => t.eng.lengthMode = .fixed && t.env.chipLengthMode = .fixed 255)
      (exec (.hdrCB 252#8) (awaiting 410 false [])) = true ∧
    onNext (fun t => t.eng.lengthMode = .infinite && t.eng.expected = some 256)
      (exec (.hdrCB 253#8) (awaiting 410 false [])) = true := by decide

/-- V-CLS-17, V-APP-2, program P7: a total below the window keeps two bytes. -/
theorem test_hdrT_shorter_than_the_window :
    onNext (fun t => t.eng.buf = [0x59#8, 0x65#8] && t.eng.counter = 2 && t.eng.expected = some 2 && t.eng.state = .readData)
      (exec (.hdrT 0x16#6 0x16#6 0x16#6 0x16#6) (awaiting 410 false [])) = true := by decide

/-- R169: both retries write no register. -/
theorem test_header_retries :
    onNext (fun t => t.eng = (awaiting 410 false []).eng && t.reports = [.kind .unclassifiableHeader])
      (exec (.hdrCInvalid 0xAA#8 5#8) (awaiting 410 false [])) = true ∧
    onNext (fun t => t.eng = (awaiting 410 false []).eng && t.reports = [.kind .unclassifiableHeader])
      (exec (.hdrUnclassifiable 0x16#6 0x0D#6 0x16#6 0x0F#6) (awaiting 410 false [])) = true := by decide

/-! ### The engine -/

/-- V-DRN-1 to V-DRN-16. -/
theorem test_drain_size_vectors : ∀ p ∈ [(0, 1, 0), (1, 1, 1), (2, 1, 1), (1, 2, 0), (2, 5, 1), (10, 5, 5), (33, 40, 32),
    (47, 100, 46), (48, 48, 48), (48, 49, 47), (49, 49, 49), (49, 100, 49), (49, 1, 49), (64, 1, 64), (60, 255, 60),
    (64, 200, 64)], drainSize p.1 p.2.1 = p.2.2 := by decide

/-- V-APP-1. -/
theorem test_append_bounded :
    ((readingB []).eng.append 13 ((List.range 60).map fun i => BitVec.ofNat 8 (i + 1))).buf =
      [0x54#8, 0x3D#8, 0x0A#8, 1#8, 2#8, 3#8, 4#8, 5#8, 6#8, 7#8, 8#8, 9#8, 10#8] := by decide

/-- V-INIT-1: from reset with two bytes and the flag up. -/
theorem test_initRx_from_reset :
    onNext (fun t => t.eng = { Engine.reset with state := .waitForSync, firstInitDone := true } && t.env.rxFifo = [] &&
        t.env.fifoThr = 4 && t.env.overflowFlag = false && t.result = .noFrame)
      (exec .pollInitRx (State.reset.setEnv { Env.reset with rxFifo := [0xAA#8, 0xBB#8], overflowFlag := true })) = true := by
  decide

/-- V-INIT-2: the same after an abort, whatever the registers held. -/
theorem test_initRx_after_an_abort :
    onNext (fun t => t.eng = { Engine.reset with state := .waitForSync, firstInitDone := true })
      (exec .pollInitRx (State.reset.setEng
        ⟨.initRx, [0x54#8, 0x3D#8, 0xFF#8, 0#8, 1#8], 5, 255#8, some 258, .infinite, .c, .b, some 300, true⟩)) = true := by
  decide

/-- V-WFS-4, V-WFS-5: 32 bytes stay, 33 are flushed. -/
theorem test_noise_flush :
    onNext (fun t => t.env.rxFifo.length = 32) (exec .pollWaitForSync (scanning (List.replicate 32 0x55#8) false false)) = true ∧
    onNext (fun t => t.env.rxFifo = [] && t.eng.state = .waitForSync)
      (exec .pollWaitForSync (scanning (List.replicate 33 0x55#8) false false)) = true := by decide

/-- Program P1: sync and the header in one call. -/
theorem test_sync_and_header_in_one_call :
    onNext (fun t => t.eng = ⟨.readData, [0x54#8, 0xCD#8, 5#8], 3, 5#8, some 10, .fixed, .c, .a, some 100, true⟩ &&
        t.env.rxFifo = [0x44#8] && t.env.fifoThr = 1 && t.env.chipLengthMode = .fixed 10)
      (exec .pollWaitForSync (scanning [0x54#8, 0xCD#8, 5#8, 0x44#8] true false)) = true := by decide

/-- V-WFD-1, V-WFD-2: 50 ms is no timeout, 51 ms is. -/
theorem test_sync_timeout :
    onNext (fun t => t.eng.state = .waitForData) (exec .pollWaitForData (awaiting 450 false [])) = true ∧
    onNext (fun t => t.eng.state = .initRx && t.reports = [.kind .syncTimeout] && t.env.rxFifo.length = 4)
      (exec .pollWaitForData (awaiting 451 false [0x54#8, 0xCD#8, 5#8, 0x44#8])) = true := by decide

/-- V-WFD-3, V-WFD-7: overflow before threshold; an unclassifiable window is lost. -/
theorem test_waitForData_overflow_and_retry :
    onNext (fun t => t.eng.state = .initRx && t.reports = [.kind .rxOverflow])
      (exec .pollWaitForData (awaiting 410 true [0x54#8])) = true ∧
    onNext (fun t => t.eng.state = .waitForData && t.env.rxFifo = [1#8])
      (exec .pollWaitForData (awaiting 410 false [0x54#8, 0xAA#8, 5#8, 1#8])) = true := by decide

/-- V-RD-10: the high-water drain with surplus. -/
theorem test_readData_surplus :
    onNext (fun t => t.result = .frameReady
        ⟨[0x54#8, 0x3D#8, 0x0A#8, 1#8, 2#8, 3#8, 4#8, 5#8, 6#8, 7#8, 8#8, 9#8, 10#8], -70, 700, .c, .b⟩ && t.env.rxFifo = [])
      (exec .pollReadData (readingB ((List.range 60).map fun i => BitVec.ofNat 8 (i + 1)))) = true := by decide

/-- R194, program P2: the last three bytes of a Mode T frame. -/
theorem test_readData_mode_t :
    onNext (fun t => t.result = .frameReady ⟨[0x02#8, 0x44#8, 0x93#8, 0x12#8, 0x34#8], -70, 700, .t, .unknown⟩ &&
        t.eng.state = .initRx)
      (exec .pollReadData (reading .t .unknown 2#8 8 [0x58#8, 0xE7#8, 0x1C#8, 0x94#8, 0xB3#8] [0x4E#8, 0x2D#8, 0xC0#8])) =
      true := by decide

/-- R74: bytes that arrive between two port operations of one poll are drained by it. -/
theorem test_bytes_arrive_inside_a_poll :
    onNext (fun t => t.result = .noFrame && t.eng.counter = 5 && t.env.rxFifo = [3#8])
      (exec .pollReadData (scheduled [[], [.byte 1#8, .byte 2#8, .byte 3#8]] (readingB []))) = true := by decide

/-- V-Q-1. -/
theorem test_queue :
    (pushFrame (frame 9) (queued 2)).plat.queue.length = 3 ∧ (pushFrame (frame 9) (queued 3)).plat.queue = (queued 3).plat.queue ∧
    (pushFrame (frame 9) (queued 3)).reports = [.kind .queueFull] ∧
    (applyEvent (queued 3) (.consume true)).plat.dispatched = [frame 0] := by decide

/-- R274's example: 868.95 MHz and 26 MHz. -/
theorem test_freq_word :
    freqWord Config.standard = 0x216BD1#24 ∧ freqBytes 0x216BD1#24 = ⟨0x21#8, 0x6B#8, 0xD1#8⟩ := by decide

/-- R272: the steps of setup, and where they stop. -/
theorem test_setup :
    (setup false true State.reset).env.freq = ⟨0x21#8, 0x6B#8, 0xD1#8⟩ ∧
    (setup false true State.reset).reports = [.kind .registerMismatch] ∧
    (setup true true State.reset).env.freq = State.reset.env.freq ∧
    (setup true true State.reset).reports = [.kind .chipUnresponsive] := by decide

/-- R69, R171: 255 is sent as the byte FF. -/
theorem test_fixed_length_is_a_byte :
    onNext (fun t => t.env.chipLengthMode = .fixed 0xFF#8) (exec (.hdrCB 252#8) (awaiting 410 false [])) = true := by decide

/-- R251: the short wait of 2 ms cuts the clock's step of 5; the wake signal ends it after 1 ms, and what follows stays scheduled. -/
theorem test_wait :
    ((awaitPoll (scheduled [[.byte 1#8, .time 5, .byte 2#8]] State.reset)).env.now = 2 ∧
      (awaitPoll (scheduled [[.byte 1#8, .time 5, .byte 2#8]] State.reset)).schedule = [[.time 3, .byte 2#8]]) ∧
    ((awaitPoll (scheduled [[.time 1], [.wake, .time 5]] State.reset)).env.now = 1 ∧
      (awaitPoll (scheduled [[.time 1], [.wake, .time 5]] State.reset)).schedule = [[.time 5]] ∧
      (awaitPoll (scheduled [[.time 1], [.wake, .time 5]] State.reset)).plat.wakeFlag = false) := by decide

/-- R216: the counts WB3 and WB4 are stated in: a byte before sync, two after it, and a new arming. -/
theorem test_reception :
    (applyEvents State.reset [.byte 1#8, .sync true, .byte 2#8, .byte 3#8]).env.reception = ⟨true, 2, 1⟩ ∧
    (cmdEnterRx (applyEvents State.reset [.byte 1#8, .sync true, .byte 2#8, .sync false])).env.reception = ⟨false, 0, 1⟩ := by
  decide

/-! ### Steps -/

/-- R270: the first step after reset is the InitRx poll. -/
theorem test_first_step : onNext (fun t => t.eng.state = .waitForSync && t.eng.firstInitDone) (step State.reset) = true := by decide

/-- A word where step fetches its next operation runs that row's operation. -/
theorem test_withFetchWord :
    onNext (fun t => t.callResult = .nibble 0xF#4) (step (State.reset.withFetchWord 8 0b101001)) = true ∧
    onNext (fun t => t.eng.expected = some 10) (step (State.reset.withFetchWord 24 0x54CD05)) = true ∧
    onNext (fun t => t.result = .noFrame) (step (State.reset.withFetchWord 8 0b11)) = true := by decide

/-- R272, R273: after a failed presence check no poll runs, the state register's nor a presented one; a symbol still does. -/
theorem test_no_poll_without_a_chip :
    step (setup true false State.reset) = .fault .chipUnresponsive ∧
    step ((setup true false State.reset).setRequest (some (.bits 2 0))) = .fault .chipUnresponsive ∧
    step ((setup true false State.reset).setRequest (some (.bits 2 3))) = .fault .chipUnresponsive ∧
    onNext (fun t => t.callResult = .nibble 0#4 && t.plat.setupAborted)
      (step ((setup true false State.reset).setRequest (some (.bits 6 0x16)))) = true := ⟨rfl, rfl, rfl, by decide⟩

/-- R250, R255: a delivered frame is pushed; a full queue drops it and reports it. -/
theorem test_step_pushes :
    onNext (fun t => t.plat.queue.length = 1) (step (reading .c .b 0#8 3 [0x54#8, 0x3D#8, 0#8] [])) = true ∧
    onNext (fun t => t.plat.queue.length = 3 && t.reports = [.kind .queueFull])
      (step ((reading .c .b 0#8 3 [0x54#8, 0x3D#8, 0#8] []).setPlat (queued 3).plat)) = true := by decide

/-! ### A concrete state for the hypotheses of each statement, each clause at a boundary of its range -/

theorem witness_EncodedOperationsDecode :
    (Instr.hdrT 0x16#6 0x0D#6 0x16#6 0x0D#6).wf = true ∧ (Instr.hdrCInvalid 0xCE#8 0#8).wf = true ∧
    (Instr.hdrUnclassifiable 0x3F#6 0x3F#6 0x3F#6 0x3F#6).wf = true ∧ Instr.pollReadData.wf = true := by decide

theorem witness_DecodedFormsEncodeBack :
    decode (.bits 24 0x58D58D) = .ok (.hdrT 0x16#6 0x0D#6 0x16#6 0x0D#6) ∧ decode (.bits 6 63) = .ok .inv3F ∧
    decode (.call .encodedSize (.size 0)) = .ok (.encodedSize 0) := by decide

theorem witness_HeaderPatternsMatchInOrder :
    (0xCE#8 ≠ 0xCD#8 ∧ 0xCE#8 ≠ 0x3D#8) ∧ (0x58#8 ≠ 0x54#8 ∧ lineDecode [0x58#8, 0xD5#8, 0x8D#8] ≠ none) ∧
    (0x53#8 ≠ 0x54#8 ∧ lineDecode [0x53#8, 0xCD#8, 0x05#8] = none) := by decide

theorem witness_LineCodeLawsForEveryCodebook :
    codebookContract Params.codebook ∧
    (0x0F#6 ∈ symbolsOf [0x58#8, 0xD5#8, 0x8F#8] ∧ valueOf Params.codebook 0x0F#6 = none) ∧
    [0x58#8].length % 3 = 1 := by decide

theorem witness_DecodedLengthMatchesEncodedSize :
    lineDecode [] = some [] ∧ lineDecode [0x58#8, 0xD0#8] = some [0x01#8] ∧
    lineDecode [0x58#8, 0xD5#8, 0x8D#8] = some [0x01#8, 0x01#8] := by decide

theorem witness_SymbolsAreSlicesOfTheBitStream :
    (symbolsOf [0x58#8, 0xD5#8, 0x8D#8])[3]? = some 0x0D#6 ∧ 5 < 6 ∧
    lineDecode [0x58#8, 0xD5#8, 0x8D#8] = some [0x01#8, 0x01#8] ∧ [0x01#8, 0x01#8][1]? = some 0x01#8 := by decide

theorem witness_DecodeOperationAnswers :
    ([0x58#8].length % 3 = 1) ∧ (∃ x ∈ symbolsOf [0x00#8, 0x00#8, 0x00#8], isCodeword x = false) ∧
    ([0x58#8, 0xDF#8].length % 3 ≠ 1 ∧ ∀ x ∈ symbolsOf [0x58#8, 0xDF#8], isCodeword x = true) := by decide

theorem witness_SizeOperationsAnswer : 288 % 2 = 0 ∧ 1 % 2 = 1 := by decide

theorem witness_CodewordOperationsAnswerTheirValue :
    onNext (fun t => t.callResult = .nibble 0xF#4) (exec .symF State.reset) = true := by decide

theorem witness_OtherSymbolOperationsAnswerFail :
    onNext (fun t => t.callResult = .fail) (exec .inv3F State.reset) = true := by decide

theorem witness_DecodeAgreesWithTheSymbolOperations :
    [0x58#8, 0xD0#8].length % 3 ≠ 1 ∧ [0x0#4, 0x1#4].length = (symbolsOf [0x58#8, 0xD0#8]).length ∧
    (symbolsOf [0x58#8, 0xD0#8])[1]? = some 0x0D#6 ∧ decode (.bits 6 0x0D) = .ok .sym1 ∧
    onNext (fun t => t.callResult = .nibble 0x1#4) (exec .sym1 State.reset) = true := by decide

theorem witness_ClassifiedHeadersAreStored :
    classifiesAs (.hdrCA 224#8) ⟨.c, .a, 224#8, 255⟩ [0x54#8, 0xCD#8, 224#8] ∧
    classifiesAs (.hdrCB 253#8) ⟨.c, .b, 253#8, 256⟩ [0x54#8, 0x3D#8, 253#8] ∧
    classifiesAs (.hdrT 0x16#6 0x16#6 0x16#6 0x16#6) ⟨.t, .unknown, 0#8, 2⟩ [0x59#8, 0x65#8, 0x96#8] ∧
    256 ≤ (awaiting 410 false []).cfg.bufferCap ∧ (awaiting 410 false []).schedule = [] :=
  ⟨.inl ⟨_, rfl, by decide, rfl⟩, .inr (.inl ⟨_, rfl, by decide, rfl⟩),
    .inr (.inr ⟨_, _, _, _, 0#8, 0#8, rfl, by decide, by decide, by decide⟩), by decide, rfl⟩

/-- Program P13's cap: 203 passes it. -/
theorem witness_HeadersAboveTheCapAbort :
    classifiesAs (.hdrCB 200#8) ⟨.c, .b, 200#8, 203⟩ [0x54#8, 0x3D#8, 200#8] ∧
    { State.reset with cfg := { Config.standard with bufferCap := 100 } }.cfg.bufferCap < 203 :=
  ⟨.inr (.inl ⟨_, rfl, by decide, rfl⟩), by decide⟩

theorem witness_ClassifyFollowsItsCases :
    (0x54#8 = 0x54#8 ∧ 0xAA#8 ≠ 0xCD#8 ∧ 0xAA#8 ≠ 0x3D#8) ∧ (0xFF#8 ≠ 0x54#8 ∧ lineDecode [0xFF#8, 0xFF#8, 0xFF#8] = none) ∧
    (0x58#8 ≠ 0x54#8 ∧ lineDecode [0x58#8, 0xD5#8, 0x8D#8] = some [0x01#8, 0x01#8]) := by decide

theorem witness_InitRxWritesNothingElse : State.reset.schedule = [] := rfl

/-- A chip that keeps WB2, with as many bytes to come as the FIFO holds. -/
theorem witness_InitRxClearsOverflowUnderWB2 :
    WB2 (scheduled [[], [], List.replicate 64 (.byte 0x55#8)] State.reset) ∧
    (bytesToCome (scheduled [[], [], List.replicate 64 (.byte 0x55#8)] State.reset)).length ≤ 64 ∧
    ∃ t, exec .pollInitRx (scheduled [[], [], List.replicate 64 (.byte 0x55#8)] State.reset) = .next t :=
  ⟨by unfold WB2; decide, by decide, _, rfl⟩

theorem witness_WaitForSyncTestsInOrder :
    (turn (scanning [] true true)).env.overflowFlag = true ∧
    ((turn (scanning [] true false)).env.overflowFlag = false ∧
      (turn (turn (scanning [] true false))).env.syncLine = true) ∧
    ((turn (turn (scanning (List.replicate 32 0#8) false false))).env.syncLine = false ∧
      (turn (turn (turn (scanning (List.replicate 32 0#8) false false)))).env.rxFifo.length ≤ 32) ∧
    ((turn (turn (scanning (List.replicate 33 0#8) false false))).env.syncLine = false ∧
      32 < (turn (turn (turn (scanning (List.replicate 33 0#8) false false)))).env.rxFifo.length) := by decide

theorem witness_WaitForSyncWithoutSyncCompletes :
    (scanning (List.replicate 33 0#8) false false).schedule = [] ∧
    (scanning (List.replicate 33 0#8) false false).env.overflowFlag = false ∧
    (scanning (List.replicate 33 0#8) false false).env.syncLine = false := by decide

/-- The clauses in their order: 51 ms; 50 ms with the flag; three bytes below the threshold of four; two bytes on a chip that breaks
WB1; a header. -/
theorem witness_WaitForDataTestsInOrder :
    (awaiting 451 false []).cfg.syncTimeoutMs < (turn (awaiting 451 false [])).env.now - 400 ∧
    ((turn (awaiting 450 true [])).env.now - 400 ≤ (awaiting 450 true []).cfg.syncTimeoutMs ∧
      (turn (turn (awaiting 450 true []))).env.overflowFlag = true) ∧
    inThreshold (turn (turn (turn (awaiting 450 false [0x54#8, 0xCD#8, 5#8])))) = false ∧
    (let s := (awaiting 450 false []).setEnv
        { (awaiting 450 false [0x54#8, 0xCD#8]).env with tracksThreshold := false, thresholdLine := true };
      inThreshold (turn (turn (turn s))) = true ∧ (turn (turn (turn (turn s)))).env.rxFifo.length < 3) ∧
    (inThreshold (turn (turn (turn (awaiting 450 false [0x54#8, 0xCD#8, 5#8, 0x44#8])))) = true ∧
      (turn (turn (turn (turn (awaiting 450 false [0x54#8, 0xCD#8, 5#8, 0x44#8]))))).env.rxFifo =
        0x54#8 :: 0xCD#8 :: 5#8 :: [0x44#8]) := by decide

theorem witness_WaitForDataCollectsTheHeader :
    let s := awaiting 450 false [0x54#8, 0x3D#8, 252#8, 0#8]
    s.schedule = [] ∧ s.eng.syncTime = some 400 ∧ s.env.now - 400 ≤ s.cfg.syncTimeoutMs ∧ s.env.overflowFlag = false ∧
      inThreshold s = true ∧ s.env.rxFifo = 0x54#8 :: 0x3D#8 :: 252#8 :: [0#8] ∧
      classify 0x54#8 0x3D#8 252#8 = some ⟨.c, .b, 252#8, 255⟩ ∧ 255 ≤ s.cfg.bufferCap := by decide

theorem witness_HeaderReadNeverUnderflowsUnderWB1 :
    WB1 (awaiting 450 false [0#8, 0#8, 0#8, 0#8]) ∧ 3 ≤ (awaiting 450 false [0#8, 0#8, 0#8, 0#8]).env.fifoThr ∧
    (awaiting 450 false [0#8, 0#8, 0#8, 0#8]).request = none ∧
    (awaiting 450 false [0#8, 0#8, 0#8, 0#8]).plat.setupAborted = false := ⟨rfl, by decide, rfl, rfl⟩

/-- V-RD-7: a complete frame and the flag. -/
theorem witness_ReadDataOverflowAborts :
    let s := (reading .c .b 0#8 3 [0x54#8, 0x3D#8, 0#8] []).setEnv { Env.reset with overflowFlag := true }
    s.eng.expected = some 3 ∧ (turn s).env.overflowFlag = true := by decide

/-- A Mode C frame with exactly its remainder in the FIFO and one with 60 bytes; a Mode T frame that decodes and one that does not. -/
theorem witness_ReadDataCompletesTheFrame :
    ((readingB (List.replicate 10 1#8)).schedule = [] ∧ (readingB (List.replicate 10 1#8)).eng.mode ≠ .t ∧
      (readingB (List.replicate 10 1#8)).eng.counter < 13 ∧ 13 - 3 ≤ (readingB (List.replicate 10 1#8)).env.rxFifo.length ∧
      13 - 3 ≤ (readingB (List.replicate 60 1#8)).env.rxFifo.length) ∧
    (let s := reading .t .unknown 1#8 6 [0x58#8, 0xD5#8, 0x8D#8] [0x35#8, 0x63#8, 0x4D#8];
      s.eng.mode = .t ∧ s.eng.expected = some 6 ∧ s.eng.syncTime = some 700 ∧
        lineDecode (s.eng.buf ++ s.env.rxFifo.take (6 - s.eng.counter)) = some [1#8, 1#8, 0x10#8, 0x11#8]) ∧
    (let s := reading .t .unknown 1#8 6 [0x58#8, 0xD9#8, 0xA3#8] [0xD3#8, 0x1C#8, 0xA8#8];
      s.eng.mode = .t ∧ lineDecode (s.eng.buf ++ s.env.rxFifo.take (6 - s.eng.counter)) = none) := by decide

/-- V-RD-5, and program P7 on entry. -/
theorem witness_ReadDataDeliversAFrameCompleteOnEntry :
    (let s := reading .c .b 0#8 3 [0x54#8, 0x3D#8, 0#8] [0x77#8];
      s.schedule = [] ∧ s.env.overflowFlag = false ∧ s.eng.expected = some s.eng.counter ∧ s.eng.mode ≠ .t) ∧
    (let s := reading .t .unknown 0#8 2 [0x59#8, 0x65#8] [0x99#8];
      s.eng.expected = some s.eng.counter ∧ s.eng.mode = .t ∧ lineDecode s.eng.buf = some [0#8]) := by decide

/-- Nothing, one byte, 48 and 49 bytes of a frame that still wants 255. -/
theorem witness_ReadDataWithholdsAByte :
    ∀ k ∈ [0, 1, 48, 49],
      let s := reading .c .b 255#8 258 [0x54#8, 0x3D#8, 255#8] (List.replicate k 0#8);
      s.schedule = [] ∧ s.env.overflowFlag = false ∧ s.eng.expected = some 258 ∧ s.eng.counter < 258 ∧
        s.env.rxFifo.length < 258 - s.eng.counter := by decide

theorem witness_DrainLoopNeverRunsOutOfFuel : drainFuel 13 (readingB []) ≤ 12 ∧ drainFuel 13 (readingB []) ≤ 13 := by decide

theorem witness_ReadDataStoresArrivedBytesInOrder :
    (scheduled [[], [.byte 1#8, .byte 2#8]] (readingB [])).eng.expected = some 13 ∧
    (scheduled [[], [.byte 1#8, .byte 2#8]] (readingB [])).eng.counter ≤ 13 ∧
    ∃ t, exec .pollReadData (scheduled [[], [.byte 1#8, .byte 2#8]] (readingB [])) = .next t ∧
      decide (t.eng.counter = 4) = true :=
  ⟨by decide, by decide, exists_next (by decide)⟩

theorem witness_FramesAreDeliveredOnlyComplete :
    (reading .t .unknown 0#8 2 [0x59#8, 0x65#8] []).eng.expected = some 2 ∧
    (reading .t .unknown 0#8 2 [0x59#8, 0x65#8] []).eng.syncTime = some 700 ∧
    ∃ t, exec .pollReadData (reading .t .unknown 0#8 2 [0x59#8, 0x65#8] []) = .next t ∧
      decide (t.result = .frameReady ⟨[0#8], -70, 700, .t, .unknown⟩) = true :=
  ⟨by decide, by decide, exists_next (by decide)⟩

theorem witness_ReadDataIgnoresSyncAndThreshold :
    ∃ t, exec .pollReadData (readingB (List.replicate 10 1#8)) = .next t ∧ decide (t.eng.state = .initRx) = true :=
  exists_next (by decide)

/-- Four bytes in the FIFO and six to come: with the header the 13 that the chip's Fixed(13) allows since sync. -/
theorem witness_FixedLengthFramesLoseNoByteUnderWB4 :
    let r := readingB [1#8, 2#8, 3#8, 4#8]
    let s := scheduled [[], [.byte 5#8, .byte 6#8], List.replicate 4 (.byte 7#8)] (r.setEnv { r.env with reception := ⟨true, 7, 0⟩ })
    s.eng.expected = some (13#8).toNat ∧ s.env.chipLengthMode = .fixed 13#8 ∧ s.eng.counter ≤ (13#8).toNat ∧ heldSinceSync s ∧
      s.env.rxFifo.length + (bytesToCome s).length ≤ 64 ∧
      ∃ t, exec .pollReadData s = .next t ∧ WB4 t ∧ t.result ≠ .noFrame := by
  refine ⟨by decide, by decide, by decide, ⟨by decide, by decide⟩, by decide, ?_⟩
  obtain ⟨t, h, p⟩ := exists_next (p := fun t => decide (t.result ≠ .noFrame) && t.env.reception.received == 13 &&
    t.env.chipLengthMode == .fixed 13#8) (o := exec .pollReadData (scheduled [[], [.byte 5#8, .byte 6#8], List.replicate 4 (.byte 7#8)]
      ((readingB [1#8, 2#8, 3#8, 4#8]).setEnv { (readingB [1#8, 2#8, 3#8, 4#8]).env with reception := ⟨true, 7, 0⟩ }))) (by decide)
  simp only [Bool.and_eq_true, decide_eq_true_eq, beq_iff_eq] at p
  refine ⟨t, h, fun n hn => ?_, p.1.1⟩
  rw [p.2] at hn
  cases hn
  rw [p.1.2]
  decide

/-- A poll in each of the four states. -/
theorem witness_PollsFollowTheTransitionTable :
    ∀ p ∈ [(Instr.pollInitRx, State.reset), (.pollWaitForSync, scanning [] false false),
        (.pollWaitForData, awaiting 450 false []), (.pollReadData, readingB [])],
      p.1.isPoll = true ∧ encode p.1 = .bits 2 p.2.eng.state.code.toNat ∧ onNext (fun _ => true) (exec p.1 p.2) = true := by
  decide

theorem witness_OverflowLeadsToInitRx :
    (turn (scanning [] true true)).env.overflowFlag = true ∧
    (turn (turn (awaiting 450 true []))).env.overflowFlag = true ∧ (awaiting 450 true []).eng.syncTime.isSome = true := by decide

theorem witness_DiagnosticsAreOutOfBand :
    ∃ t, exec .pollWaitForSync (scanning [] true true) = .next t ∧ decide (t.reports = [.kind .rxOverflow]) = true :=
  exists_next (by decide)

theorem witness_DrainSizeFollowsItsPriorities :
    (1 ≤ 1 ∧ 48 < 49) ∧ (1 ≤ 48 ∧ 48 ≤ 48) ∧ (1 ≤ 49 ∧ 48 ≤ 48 ∧ 48 < 49) ∧ (1 ≤ 1 ∧ 0 < 1) := by decide

theorem witness_AppendBoundedDropsTheSurplus :
    (readingB []).eng.counter ≤ 13 ∧ (readingB []).eng.buf.length = (readingB []).eng.counter := by decide

theorem witness_FifoReadTakesTheOldestBytes :
    (readingB [0x44#8, 0x93#8, 0x15#8]).schedule = [] ∧
    (readingB [0x44#8, 0x93#8, 0x15#8]).env.rxFifo = [0x44#8, 0x93#8] ++ [0x15#8] ∧
    (readingB [0x44#8, 0x93#8, 0x15#8]).env.rxFifo.length < 4 := by decide

theorem witness_ArrivingBytesFillTheFifo :
    (scanning (List.replicate 63 0#8) false false).env.rxFifo.length < 64 ∧
    64 ≤ (scanning (List.replicate 64 0#8) false false).env.rxFifo.length := by decide

/-- 25 bytes in two milliseconds are at the rate. -/
theorem atFillRate_of_one_tick : atFillRate (.time 2 :: List.replicate 25 (.byte 0x55#8)) := by
  intro before window after h hb
  have hlen : (arrivals window).length ≤ 25 := by
    have all : (arrivals (.time 2 :: List.replicate 25 (.byte 0x55#8))).length = 25 := by decide
    rw [h] at all
    simp only [arrivals, List.flatMap_append, List.length_append] at all ⊢
    omega
  cases before with
  | nil =>
    cases window with
    | nil => exact Nat.zero_le _
    | cons e rest =>
      obtain ⟨rfl, -⟩ := List.cons.inj h
      simp only [elapsed, List.map_cons, List.sum_cons, Event.elapses]
      omega
  | cons e b =>
    obtain hb | ⟨e', rest, rfl, ht⟩ := hb
    · cases hb
    · have : e' ∈ List.replicate 25 (Event.byte 0x55#8) := by
        rw [(List.cons.inj h).2]
        simp
      rw [List.eq_of_mem_replicate this] at ht
      cases ht

set_option maxRecDepth 4000 in
/-- 39 bytes in the FIFO and 25 in two milliseconds. -/
theorem witness_NoOverflowBetweenPollsUnderWB6 :
    let s := scheduled [.time 2 :: List.replicate 25 (.byte 0x55#8)] (scanning (List.replicate 39 0#8) false false)
    WB2 s ∧ s.request = none ∧ s.env.rxFifo.length ≤ 39 ∧ s.env.overflowFlag = false ∧ ∃ t, step s = .next t ∧ WB6 s t := by
  refine ⟨by unfold WB2; decide, rfl, by decide, by decide, ?_⟩
  obtain ⟨t, h, p⟩ := exists_next (p := fun t => t.schedule == [] && t.env.now == 102)
    (o := step (scheduled [.time 2 :: List.replicate 25 (.byte 0x55#8)] (scanning (List.replicate 39 0#8) false false))) (by decide)
  simp only [Bool.and_eq_true, beq_iff_eq] at p
  refine ⟨t, h, ?_, by rw [p.2]; decide⟩
  unfold eventsTaken
  rw [p.1]
  exact atFillRate_of_one_tick

theorem witness_FullQueueDropsTheNewFrame : (queued 2).plat.queue.length < 3 ∧ 3 ≤ (queued 3).plat.queue.length := by decide

theorem witness_PopTakesTheOldestFrame :
    State.reset.plat.queue = [] ∧ (queued 2).plat.queue = frame 0 :: [frame 1] := by decide

/-- An idle engine with a wake signal line, and two without; a pending signal; a signal just before the timeout, and one at it. -/
theorem witness_HostWaitEndsAtTheTimeoutOrTheWakeSignal :
    (let s := { scanning [] false false with cfg := { Config.standard with hasInterrupt := true } };
      s.cfg.hasInterrupt = true ∧ s.eng.state = .waitForSync) ∧
    State.reset.cfg.hasInterrupt = false ∧ (readingB []).eng.state ≠ .waitForSync ∧
    (applyEvent State.reset .wake).plat.wakeFlag = true ∧
    ((scheduled [[.time 1, .wake]] State.reset).schedule.flatten = [.time 1] ++ .wake :: [] ∧ .wake ∉ [Event.time 1] ∧
      elapsed [.time 1] < hostWait State.reset) ∧
    (∀ before after : List Event, (scheduled [[.time 2, .wake]] State.reset).schedule.flatten = before ++ .wake :: after →
      hostWait State.reset ≤ elapsed before) := by
  refine ⟨by decide, by decide, by decide, by decide, by decide, fun before after h => ?_⟩
  obtain _ | ⟨_, _ | ⟨_, _⟩⟩ := before
  · cases h
  · cases h; decide
  · simp [scheduled, State.setSchedule] at h

/-- A symbol presented; a poll after an aborted setup, one that gives no frame, one that gives a frame, and one that underflows. -/
theorem witness_StepRunsTheDecodedOperation :
    (decode (fetchWord (State.reset.setRequest (some (.bits 6 0x16)))) = .ok .sym0 ∧ Instr.sym0.wf = true ∧
      Instr.sym0.isPoll = false) ∧
    (decode (fetchWord ((setup true false State.reset).setRequest (some (.bits 2 3)))) = .ok .pollReadData ∧
      Instr.pollReadData.wf = true ∧ Instr.pollReadData.isPoll = true ∧
      ((setup true false State.reset).setRequest (some (.bits 2 3))).plat.setupAborted = true) ∧
    (decode (fetchWord (readingB [])) = .ok .pollReadData ∧ (readingB []).plat.setupAborted = false ∧
      onNext (fun t => t.result = .noFrame) (exec .pollReadData (awaitPoll (readingB []))) = true) ∧
    onNext (fun t => t.result = .frameReady ⟨[0x54#8, 0x3D#8, 0#8], -70, 700, .c, .b⟩)
      (exec .pollReadData (awaitPoll (reading .c .b 0#8 3 [0x54#8, 0x3D#8, 0#8] []))) = true := by decide

theorem witness_StepRunsTheDecodedOperation_fault :
    exec .pollWaitForData (awaitPoll ((awaiting 448 false []).setEnv
      { (awaiting 448 false []).env with tracksThreshold := false, thresholdLine := true })) = .fault .fifoUnderflow := rfl

theorem witness_StateRegisterSelectsThePoll :
    State.reset.request = none ∧ State.reset.eng.state = .initRx ∧ (scanning [] false false).eng.state = .waitForSync ∧
    (awaiting 450 false []).eng.state = .waitForData ∧ (readingB []).eng.state = .readData := by decide

theorem witness_SetupSetsTheFrequencyUnlessTheChipIsMissing :
    State.reset.request = none ∧ decode (fetchWord (State.reset.setRequest (some (.bits 2 2)))) = .ok .pollWaitForData ∧
    Instr.pollWaitForData.isPoll = true ∧ State.reset.cfg.wf ∧ (setup false true State.reset).env.freq = ⟨0x21#8, 0x6B#8, 0xD1#8⟩ := by decide

theorem witness_StepsKeepClockAndConfiguration : ∃ t, step State.reset = .next t := ⟨_, rfl⟩

/-- Program P8 before its last poll. -/
theorem witness_EveryStepKeepsTheInvariant :
    Machine.Inv (reading .c .b 0#8 3 [0x54#8, 0x3D#8, 0#8] [0x77#8]) ∧
    ∃ t, step (reading .c .b 0#8 3 [0x54#8, 0x3D#8, 0#8] [0x77#8]) = .next t ∧
      decide (t.result = .frameReady ⟨[0x54#8, 0x3D#8, 0#8], -70, 700, .c, .b⟩) = true := by
  refine ⟨⟨by decide, by decide, ?_, ?_, ?_, by decide, fun f h => (by cases h), trivial, fun w h => (by cases h)⟩,
    exists_next (by decide)⟩
  · exact ⟨3, rfl, by decide, by decide, by decide, .inr (.inl ⟨rfl, rfl⟩), rfl, .inr (.inl ⟨rfl, rfl, rfl, rfl⟩), by decide⟩
  · exact ⟨by decide, by decide, fun h => (by cases h), fun n h => (by cases h; decide)⟩
  · intro t h
    cases h
    decide

/-- Program P7 before its last poll: a Mode T frame is delivered. -/
theorem witness_DeliveredFramesAreWellFormed :
    Machine.Inv (reading .t .unknown 0#8 2 [0x59#8, 0x65#8] [0x99#8]) ∧
    ∃ t, step (reading .t .unknown 0#8 2 [0x59#8, 0x65#8] [0x99#8]) = .next t ∧
      decide (t.result = .frameReady ⟨[0#8], -70, 700, .t, .unknown⟩) = true := by
  refine ⟨⟨by decide, by decide, ?_, ?_, ?_, by decide, fun f h => (by cases h), trivial, fun w h => (by cases h)⟩,
    exists_next (by decide)⟩
  · exact ⟨2, rfl, by decide, by decide, by decide, .inr (.inr ⟨rfl, rfl⟩), rfl,
      .inr (.inr ⟨rfl, rfl, by decide, 0x59#8, 0x65#8, [], rfl, by decide, by decide⟩), by decide⟩
  · exact ⟨by decide, by decide, fun h => (by cases h), fun n h => (by cases h; decide)⟩
  · intro t h
    cases h
    decide

end Sys2Proof.Tests
end

section
/-! SUPPORT. What the shared operations leave of a state, said once, and what a delivered frame's bytes are: the layer on which the
proofs about the state stand. -/

namespace Sys2Proof.Machine

/-! ### Operations that answer, and header windows (R97, R107, R165 to R169) -/

/-- A symbol row or a call answers a value that no state has a part in (R12, R20). -/
theorem exec_eq_answer {i : Instr} (hp : i.isPoll = false) (hh : i.isHeader = false) :
    ∃ r, ∀ s, exec i s = answer r s := by
  cases i with
  | pollInitRx | pollWaitForSync | pollWaitForData | pollReadData => cases hp
  | hdrCA | hdrCB | hdrCInvalid | hdrT | hdrUnclassifiable => cases hh
  | decode bs =>
    cases hd : lineDecode bs with
    | none => exact ⟨.fail, fun s => by simp only [exec, execDecode, hd]⟩
    | some out => exact ⟨.bytes out, fun s => by simp only [exec, execDecode, hd]⟩
  | _ => exact ⟨_, fun _ => rfl⟩

/-- A header row accepts the window it classifies, or retries (R165 to R169). -/
theorem exec_header {i : Instr} (hh : i.isHeader = true) :
    (∃ c h, classifiesAs i c h ∧ ∀ s, exec i s = acceptHeader c h s) ∨ ∀ s, exec i s = retryHeader s := by
  cases i with
  | hdrCA l => exact .inl ⟨_, _, .inl ⟨l, rfl, rfl, rfl⟩, fun _ => rfl⟩
  | hdrCB l => exact .inl ⟨_, _, .inr (.inl ⟨l, rfl, rfl, rfl⟩), fun _ => rfl⟩
  | hdrCInvalid | hdrUnclassifiable => exact .inr fun _ => rfl
  | hdrT a b c d =>
    cases hd : lineDecode (groupBytes a b c d) with
    | none => exact .inr fun s => by simp only [exec, execHdrT, hd]
    | some out =>
      obtain ⟨l, m, rfl⟩ := lineDecode_window_two hd
      exact .inl ⟨_, _, .inr (.inr ⟨a, b, c, d, l, m, rfl, hd, rfl, rfl⟩), fun s => by simp only [exec, execHdrT, hd]; rfl⟩
  | _ => cases hh

/-- What a three-byte window decodes to is a header row (R97). -/
theorem headerInstr_isHeader (h0 h1 h2 : Byte) : (headerInstr h0 h1 h2).isHeader = true := by
  simp only [headerInstr]
  split_ifs <;> rfl

/-- The state value of the register presents the poll of that state (R101, R140). -/
theorem decode_stateCode (a : AcqState) : decode (.bits 2 a.code.toNat) = .ok (pollInstr a) := by
  cases a <;> rfl

theorem pollInstr_isPoll (a : AcqState) : (pollInstr a).isPoll = true := by cases a <;> rfl

/-! ### Decoded bytes (R94, R120, R125) -/

theorem symbolsOf_length : ∀ s : List Byte, (symbolsOf s).length = 8 * s.length / 6
  | [] => rfl
  | [_] => by simp [symbolsOf]
  | [_, _] => by simp [symbolsOf]
  | _ :: _ :: _ :: rest => by simp only [symbolsOf, List.length_cons, symbolsOf_length rest]; omega

theorem symbolsOf_two (b0 b1 : Byte) (rest : List Byte) :
    ∃ more, symbolsOf (b0 :: b1 :: rest) = symAt0 b0 :: symAt6 b0 b1 :: more := by
  cases rest <;> exact ⟨_, rfl⟩

theorem lineDecode_length {s d : List Byte} (h : lineDecode s = some d) : d.length = 8 * s.length / 6 / 2 := by
  obtain ⟨-, vs, hvs, rfl⟩ := lineDecode_spec h
  rw [pairUp_length, valuesOf_length _ _ _ hvs, symbolsOf_length]

/-- ENCODED_SIZE is the size that decodes to as many bytes (R125). -/
theorem lineDecode_length_of_encodedSize {s d : List Byte} {k : Nat} (h : lineDecode s = some d)
    (hs : s.length = encodedSize k) : d.length = k := by
  rw [lineDecode_length h, hs, encodedSize]
  omega

/-- The first decoded byte is the values of the first two symbols (R94, R168). -/
theorem lineDecode_first {b0 b1 l : Byte} {rest d : List Byte} (h : lineDecode (b0 :: b1 :: rest) = some (l :: d)) :
    valueOf Params.codebook (symAt0 b0) = some (hiNibble l) ∧
      valueOf Params.codebook (symAt6 b0 b1) = some (loNibble l) := by
  obtain ⟨hi, lo, h0, h1, hhi, hlo⟩ := lineDecode_get h (k := 0) (y := l) rfl
  obtain ⟨more, hm⟩ := symbolsOf_two b0 b1 rest
  rw [hm] at h0 h1
  cases h0
  cases h1
  exact ⟨hhi, hlo⟩

/-- A buffer whose first two symbols are those of `l` decodes to `l` first (R99, R168). -/
theorem lineDecode_first_of_codedLength {buf d : List Byte} {l y : Byte} (hc : codedLength buf l)
    (h : lineDecode buf = some (y :: d)) : y = l := by
  obtain ⟨b0, b1, rest, rfl, hhi, hlo⟩ := hc
  obtain ⟨yhi, ylo⟩ := lineDecode_first h
  rw [yhi, Option.some.injEq] at hhi
  rw [ylo, Option.some.injEq] at hlo
  rw [← nibbles_append y, hhi, hlo, nibbles_append]

/-- The length byte's symbols are still there when two bytes or more are (R99). -/
theorem codedLength_take {buf : List Byte} {l : Byte} {n : Nat} (hc : codedLength buf l) (hn : 2 ≤ n) :
    codedLength (buf.take n) l := by
  obtain ⟨b0, b1, rest, rfl, hhi, hlo⟩ := hc
  obtain ⟨k, rfl⟩ := Nat.exists_eq_add_of_le' hn
  exact ⟨b0, b1, rest.take k, rfl, hhi, hlo⟩

/-! ### The header kept in the buffer (R99, R166 to R168) -/

/-- Bytes appended to the buffer leave the header where it stands (R66, R99). -/
theorem headerKept_append {e : Engine} {total : Nat} (bs : List Byte) (h : headerKept e total) :
    headerKept (e.append total bs) total := by
  have first : ∀ {h3 x : List Byte}, e.buf.take 3 = h3 → h3.length = 3 → (e.buf ++ x).take 3 = h3 := by
    intro h3 x ht hl
    have : 3 ≤ e.buf.length := by simpa [hl] using congrArg List.length ht
    rw [List.take_append_of_le_length this, ht]
  obtain ⟨hm, hb, ht, hbuf⟩ | ⟨hm, hb, ht, hbuf⟩ | ⟨hm, hb, ht, b0, b1, rest, hbuf, hhi, hlo⟩ := h
  · exact .inl ⟨hm, hb, ht, first hbuf rfl⟩
  · exact .inr (.inl ⟨hm, hb, ht, first hbuf rfl⟩)
  · exact .inr (.inr ⟨hm, hb, ht, b0, b1, rest ++ _, by rw [Engine.append_buf, hbuf]; rfl, hhi, hlo⟩)

/-- The header a window is classified as stands in the buffer of an engine that was clear (R99, R166 to R168, R170). -/
theorem headerKept_of_classifiesAs {i : Instr} {c : Classified} {h : List Byte} {e : Engine} (hi : classifiesAs i c h)
    (he : e.clear) : headerKept ((e.classified c).append c.expected h) c.expected := by
  obtain ⟨hbuf, hcnt, -⟩ := he
  obtain ⟨l, -, rfl, rfl⟩ | ⟨l, -, rfl, rfl⟩ | ⟨a, b, c, d, l, m, -, hd, rfl, rfl⟩ := hi
  · refine .inl ⟨rfl, rfl, rfl, ?_⟩
    have : 3 ≤ 2 + modeTPacketSize l := by unfold modeTPacketSize; omega
    simp [hbuf, hcnt, this]
  · refine .inr (.inl ⟨rfl, rfl, rfl, ?_⟩)
    simp [hbuf, hcnt]
  · have hge : 2 ≤ encodedSize (modeTPacketSize l) := by unfold encodedSize modeTPacketSize; omega
    have hcoded : codedLength (groupBytes a b c d) l := ⟨_, _, _, rfl, lineDecode_first hd⟩
    refine .inr (.inr ⟨rfl, rfl, rfl, ?_⟩)
    simp only [Engine.append_buf, Engine.classified_buf, Engine.classified_counter, hbuf, hcnt, List.nil_append, Nat.sub_zero]
    exact codedLength_take hcoded (le_min (Nat.le_succ 2) hge)

/-- A classified header gives a legal pair and a total between 2 and 432 (R28, R131). -/
theorem classifiesAs_bounds {i : Instr} {c : Classified} {h : List Byte} (hi : classifiesAs i c h) :
    legalPair c.mode c.block ∧ 2 ≤ c.expected ∧ c.expected ≤ 432 ∧ h.length = 3 := by
  obtain ⟨l, -, rfl, rfl⟩ | ⟨l, -, rfl, rfl⟩ | ⟨a, b, c, d, l, m, -, hd, rfl, rfl⟩ := hi
  · have := l.isLt
    exact ⟨.inl ⟨rfl, rfl⟩, by simp only [modeTPacketSize]; omega, by simp only [modeTPacketSize]; omega, rfl⟩
  · have := l.isLt
    exact ⟨.inr (.inl ⟨rfl, rfl⟩), by dsimp only; omega, by dsimp only; omega, rfl⟩
  · have := l.isLt
    exact ⟨.inr (.inr ⟨rfl, rfl⟩), by simp only [encodedSize, modeTPacketSize]; omega,
      by simp only [encodedSize, modeTPacketSize]; omega, rfl⟩

/-- A buffer filled to its total is delivered as a good frame (R28, R99, R188, R189). -/
theorem goodFrame_of_headerKept {e : Engine} {total : Nat} {f : RawFrame} (hk : headerKept e total)
    (hl : e.buf.length = total) (hb : frameBytes e = some f.bytes) (hm : f.mode = e.mode) (hbl : f.block = e.block) :
    goodFrame f := by
  have modeC : ∀ {x y l : Byte}, e.mode = .c → e.buf.take 3 = [x, y, l] →
      f.bytes = x :: y :: l :: e.buf.drop 3 ∧ f.bytes.length = total := by
    intro x y l hc ht
    have hfb : f.bytes = e.buf := by simpa [frameBytes, hc, eq_comm] using hb
    have hsplit := List.take_append_drop 3 e.buf
    rw [ht] at hsplit
    exact ⟨hfb.trans hsplit.symm, by rw [hfb, hl]⟩
  obtain ⟨hc, hk, rfl, ht⟩ | ⟨hc, hk, rfl, ht⟩ | ⟨hT, hk, rfl, hcoded⟩ := hk
  · obtain ⟨heq, hlen⟩ := modeC hc ht
    exact .inl ⟨hm.trans hc, hbl.trans hk, _, _, heq, hlen⟩
  · obtain ⟨heq, hlen⟩ := modeC hc ht
    exact .inr (.inl ⟨hm.trans hc, hbl.trans hk, _, _, heq, hlen⟩)
  · have hd : lineDecode e.buf = some f.bytes := by simpa [frameBytes, hT] using hb
    have hlen := lineDecode_length_of_encodedSize hd hl
    refine .inr (.inr ⟨hm.trans hT, hbl.trans hk, e.lengthField, ?_⟩)
    cases hf : f.bytes with
    | nil => rw [hf] at hlen; simp [modeTPacketSize] at hlen
    | cons y d =>
      rw [hf] at hd hlen
      exact ⟨d, by rw [lineDecode_first_of_codedLength hcoded hd], hlen⟩

end Sys2Proof.Machine
end

section
/-! SUPPORT. The diagnostic channel is written and never read (R41): every operation commutes with a channel that held more before it. -/

namespace Sys2Proof.Machine

/-- The state whose channel held the reports `p` before its own. -/
def State.reportedBefore (p : List Report) (s : State) : State := s.setReports (p ++ s.reports)

/-- The outcome whose next state's channel held the reports `p` before its own. -/
def outcomeReportedBefore (p : List Report) : Host.Outcome State Fault Refusal → Host.Outcome State Fault Refusal
  | .next t => .next (t.reportedBefore p)
  | .fault f => .fault f
  | .refused r => .refused r

section
variable (p : List Report) (s : State)

@[simp] theorem reportedBefore_eng : (s.reportedBefore p).eng = s.eng := rfl
@[simp] theorem reportedBefore_env : (s.reportedBefore p).env = s.env := rfl
@[simp] theorem reportedBefore_plat : (s.reportedBefore p).plat = s.plat := rfl
@[simp] theorem reportedBefore_cfg : (s.reportedBefore p).cfg = s.cfg := rfl
@[simp] theorem reportedBefore_schedule : (s.reportedBefore p).schedule = s.schedule := rfl
@[simp] theorem reportedBefore_freeCount : (s.reportedBefore p).freeCount = s.freeCount := rfl

@[simp] theorem reportedBefore_setEng (e : Engine) : (s.reportedBefore p).setEng e = (s.setEng e).reportedBefore p := rfl
@[simp] theorem reportedBefore_setEnv (e : Env) : (s.reportedBefore p).setEnv e = (s.setEnv e).reportedBefore p := rfl
@[simp] theorem reportedBefore_setPlat (q : Platform) :
    (s.reportedBefore p).setPlat q = (s.setPlat q).reportedBefore p := rfl
@[simp] theorem reportedBefore_setSchedule (l : List (List Event)) :
    (s.reportedBefore p).setSchedule l = (s.setSchedule l).reportedBefore p := rfl
@[simp] theorem reportedBefore_setFreeCount (n : Nat) :
    (s.reportedBefore p).setFreeCount n = (s.setFreeCount n).reportedBefore p := rfl

@[simp] theorem emit_reportedBefore (r : Report) : emit r (s.reportedBefore p) = (emit r s).reportedBefore p := by
  simp [emit, State.reportedBefore, State.setReports]

/-! ### The other agents -/

theorem consume_reportedBefore (i : Bool) : consume i (s.reportedBefore p) = (consume i s).reportedBefore p := by
  simp only [consume, reportedBefore_plat]
  split
  · rfl
  · cases i <;> simp

theorem applyEvent_reportedBefore (e : Event) :
    applyEvent (s.reportedBefore p) e = (applyEvent s e).reportedBefore p := by
  cases e with
  | consume i => exact consume_reportedBefore p s i
  | _ => rfl

theorem applyEvents_reportedBefore (es : List Event) :
    applyEvents (s.reportedBefore p) es = (applyEvents s es).reportedBefore p := by
  induction es generalizing s with
  | nil => rfl
  | cons e es ih => simpa only [applyEvents, List.foldl_cons, applyEvent_reportedBefore] using ih (applyEvent s e)

@[simp] theorem turn_reportedBefore : turn (s.reportedBefore p) = (turn s).reportedBefore p := by
  simp only [turn, reportedBefore_schedule]
  split
  · rfl
  · rw [reportedBefore_setSchedule, applyEvents_reportedBefore]

/-! ### The shared operations -/

@[simp] theorem cmdFlushRx_reportedBefore : cmdFlushRx (s.reportedBefore p) = (cmdFlushRx s).reportedBefore p := by
  simp [cmdFlushRx]

@[simp] theorem cmdFlushTx_reportedBefore : cmdFlushTx (s.reportedBefore p) = (cmdFlushTx s).reportedBefore p := by
  simp [cmdFlushTx]

@[simp] theorem cmdSetThreshold_reportedBefore (v : Nat) :
    cmdSetThreshold v (s.reportedBefore p) = (cmdSetThreshold v s).reportedBefore p := by
  simp [cmdSetThreshold]

@[simp] theorem cmdSetLengthMode_reportedBefore (m : ChipLengthMode) :
    cmdSetLengthMode m (s.reportedBefore p) = (cmdSetLengthMode m s).reportedBefore p := by
  simp [cmdSetLengthMode]

@[simp] theorem cmdEnterRx_reportedBefore : cmdEnterRx (s.reportedBefore p) = (cmdEnterRx s).reportedBefore p := by
  simp [cmdEnterRx]

@[simp] theorem appendBounded_reportedBefore (total : Nat) (bs : List Byte) :
    appendBounded total bs (s.reportedBefore p) = (appendBounded total bs s).reportedBefore p := rfl

@[simp] theorem rdFifo_reportedBefore (n : Nat) :
    rdFifo n (s.reportedBefore p) = (rdFifo n s).map (Prod.map id (State.reportedBefore p)) := by
  simp only [rdFifo, turn_reportedBefore, reportedBefore_env]
  split <;> rfl

@[simp] theorem readSyncTime_reportedBefore :
    readSyncTime (s.reportedBefore p) = ((readSyncTime s).1, (readSyncTime s).2.reportedBefore p) := by
  simp only [readSyncTime, reportedBefore_eng]
  split <;> rfl

@[simp] theorem readExpected_reportedBefore :
    readExpected (s.reportedBefore p) = ((readExpected s).1, (readExpected s).2.reportedBefore p) := by
  simp only [readExpected, reportedBefore_eng]
  split <;> rfl

@[simp] theorem confirmRx_reportedBefore (n : Nat) :
    confirmRx n (s.reportedBefore p) = (confirmRx n s).reportedBefore p := by
  induction n generalizing s with
  | zero => exact emit_reportedBefore p s _
  | succ n ih =>
    simp only [confirmRx, turn_reportedBefore, inChipState, reportedBefore_env, ih]
    split <;> rfl

@[simp] theorem recover_reportedBefore : recover (s.reportedBefore p) = (recover s).reportedBefore p := by
  simp [recover]

@[simp] theorem programLength_reportedBefore (total : Nat) :
    programLength total (s.reportedBefore p) = (programLength total s).reportedBefore p := by
  by_cases hf : usesFixed s.cfg total <;> simp [programLength, hf]

@[simp] theorem residualDropped_reportedBefore :
    residualDropped (s.reportedBefore p) = (residualDropped s).reportedBefore p := by
  simp only [residualDropped, turn_reportedBefore, reportedBefore_env, reportedBefore_setEnv]
  split <;> simp

/-! ### Ends of a poll -/

@[simp] theorem returnNoFrame_reportedBefore :
    returnNoFrame (s.reportedBefore p) = outcomeReportedBefore p (returnNoFrame s) := rfl

@[simp] theorem returnFrame_reportedBefore (f : RawFrame) :
    returnFrame f (s.reportedBefore p) = outcomeReportedBefore p (returnFrame f s) := rfl

@[simp] theorem raiseAbort_reportedBefore (k : AbortKind) :
    raiseAbort k (s.reportedBefore p) = outcomeReportedBefore p (raiseAbort k s) := by
  simp [raiseAbort]

@[simp] theorem retryHeader_reportedBefore :
    retryHeader (s.reportedBefore p) = outcomeReportedBefore p (retryHeader s) := by
  simp [retryHeader]

@[simp] theorem acceptHeader_reportedBefore (c : Classified) (h : List Byte) :
    acceptHeader c h (s.reportedBefore p) = outcomeReportedBefore p (acceptHeader c h s) := by
  by_cases hb : s.cfg.bufferCap < c.expected <;> simp [acceptHeader, hb]

theorem execHeader_reportedBefore {i : Instr} (hh : i.isHeader = true) :
    exec i (s.reportedBefore p) = outcomeReportedBefore p (exec i s) := by
  obtain ⟨c, h, -, heq⟩ | heq := exec_header hh <;> simp [heq]

@[simp] theorem readHeader_reportedBefore :
    readHeader (s.reportedBefore p) = outcomeReportedBefore p (readHeader s) := by
  simp only [readHeader, rdFifo_reportedBefore]
  cases hr : rdFifo Params.headerWindow s with
  | none => rfl
  | some q =>
    obtain ⟨bytes, t⟩ := q
    match bytes, rdFifo_length hr with
    | [h0, h1, h2], _ =>
      exact (runHeader_eq_exec h0 h1 h2 _).trans
        ((execHeader_reportedBefore p t (headerInstr_isHeader h0 h1 h2)).trans
          (congrArg _ (runHeader_eq_exec h0 h1 h2 t).symm))

@[simp] theorem waitForDataStep_reportedBefore :
    waitForDataStep (s.reportedBefore p) = outcomeReportedBefore p (waitForDataStep s) := by
  simp only [waitForDataStep, readSyncTime_reportedBefore, turn_reportedBefore, reportedBefore_cfg, inNow, inOverflow,
    inThreshold, reportedBefore_env]
  split_ifs <;> simp

@[simp] theorem complete_reportedBefore :
    complete (s.reportedBefore p) = outcomeReportedBefore p (complete s) := by
  simp only [complete_eq, reportedBefore_eng]
  split <;> simp

@[simp] theorem drainLoop_reportedBefore (total fuel : Nat) :
    drainLoop total fuel (s.reportedBefore p) = outcomeReportedBefore p (drainLoop total fuel s) := by
  induction fuel generalizing s with
  | zero => rfl
  | succ fuel ih =>
    have hdrain : ∀ n t, drained total n (t.reportedBefore p) = (drained total n t).reportedBefore p := fun _ _ => rfl
    simp only [drainLoop_succ, turn_reportedBefore, reportedBefore_env, reportedBefore_eng, hdrain, ih]
    split_ifs <;> simp

/-- The four polls (R143, R147, R160, R180). -/
theorem execPoll_reportedBefore {i : Instr} (hp : i.isPoll = true) :
    exec i (s.reportedBefore p) = outcomeReportedBefore p (exec i s) := by
  cases i with
  | pollInitRx => simp [exec, execPollInitRx]
  | pollWaitForSync =>
    simp only [exec, execPollWaitForSync, turn_reportedBefore, inOverflow, inSync, inNow, inOccupancy, reportedBefore_env]
    split_ifs <;> simp
  | pollWaitForData => exact waitForDataStep_reportedBefore p s
  | pollReadData => simp [exec, execPollReadData, readDataStep, drainFuel]
  | _ => cases hp

/-- An operation's outcome does not depend on what is on the channel, and what it reports is added to it (R41). -/
theorem exec_reportedBefore (i : Instr) : exec i (s.reportedBefore p) = outcomeReportedBefore p (exec i s) := by
  cases hp : i.isPoll with
  | true => exact execPoll_reportedBefore p s hp
  | false =>
    cases hh : i.isHeader with
    | true => exact execHeader_reportedBefore p s hh
    | false =>
      obtain ⟨r, hr⟩ := exec_eq_answer hp hh
      simp only [hr]
      rfl

end

/-- Settles O43: both states are the one with an empty channel, with their own reports before. -/
theorem diagnosticsAreOutOfBand : Obligations.DiagnosticsAreOutOfBand := by
  intro i s t r h
  have hs : s = (s.setReports []).reportedBefore s.reports := by simp [State.reportedBefore, State.setReports]
  have hr : { s with reports := r } = (s.setReports []).reportedBefore r := by
    simp [State.reportedBefore, State.setReports]
  rw [hs, exec_reportedBefore] at h
  rw [hr, exec_reportedBefore]
  cases hu : exec i (s.setReports []) with
  | next u =>
    rw [hu] at h
    cases h
    exact ⟨_, rfl⟩
  | fault | refused => rw [hu] at h; cases h

end Sys2Proof.Machine
end

section
/-! SUPPORT. What an operation keeps of a state whatever it does to the registers, and how the drain loop and the completion end. -/

namespace Sys2Proof.Machine

/-! ### The frame of an operation -/

/-- `t` comes after `s` within one operation: the configuration, the last result and what is presented stay, the receive FIFO stays
within its capacity, the clock is not turned back, and the queue is only popped. Nothing is said of the registers and settings. -/
structure Onward (s t : State) : Prop where
  cfg : t.cfg = s.cfg
  result : t.result = s.result
  request : t.request = s.request
  capacity : s.env.rxFifo.length ≤ Params.fifoCapacity → t.env.rxFifo.length ≤ Params.fifoCapacity
  clock : s.env.now ≤ t.env.now
  queue : ∃ k, t.plat.queue = s.plat.queue.drop k

theorem AgentsOnly.onward {s t : State} (h : AgentsOnly s t) : Onward s t :=
  ⟨h.cfg, h.result, h.request, h.capacity, h.clock, h.queue⟩

theorem Onward.trans {s t u : State} (h : Onward s t) (k : Onward t u) : Onward s u where
  cfg := k.cfg.trans h.cfg
  result := k.result.trans h.result
  request := k.request.trans h.request
  capacity := fun c => k.capacity (h.capacity c)
  clock := h.clock.trans k.clock
  queue := by
    obtain ⟨m, hm⟩ := h.queue
    obtain ⟨n, hn⟩ := k.queue
    exact ⟨m + n, by rw [hn, hm, List.drop_drop]⟩

/-- A change of the transceiver that stores no byte and leaves the clock. -/
theorem Onward.of_env (s : State) (e : Env) (hf : e.rxFifo.length ≤ s.env.rxFifo.length) (hn : e.now = s.env.now) :
    Onward s (s.setEnv e) :=
  ⟨rfl, rfl, rfl, hf.trans, hn.ge, 0, rfl⟩

theorem Onward.of_eng (s : State) (e : Engine) : Onward s (s.setEng e) := ⟨rfl, rfl, rfl, id, le_rfl, 0, rfl⟩

theorem turn_onward (s : State) : Onward s (turn s) := (turn_agentsOnly s).onward

theorem cmdFlushRx_onward (s : State) : Onward s (cmdFlushRx s) :=
  (turn_onward s).trans (.of_env _ _ (Nat.zero_le _) rfl)

theorem cmdFlushTx_onward (s : State) : Onward s (cmdFlushTx s) := (turn_onward s).trans (.of_env _ _ le_rfl rfl)

theorem cmdSetThreshold_onward (v : Nat) (s : State) : Onward s (cmdSetThreshold v s) :=
  (turn_onward s).trans (.of_env _ _ le_rfl rfl)

theorem cmdSetLengthMode_onward (m : ChipLengthMode) (s : State) : Onward s (cmdSetLengthMode m s) :=
  (turn_onward s).trans (.of_env _ _ le_rfl rfl)

theorem cmdEnterRx_onward (s : State) : Onward s (cmdEnterRx s) := (turn_onward s).trans (.of_env _ _ le_rfl rfl)

/-- Bytes taken from the receive FIFO (R62). -/
theorem dropFifo_onward (n : Nat) (s : State) :
    Onward s (s.setEnv { s.env with rxFifo := s.env.rxFifo.drop n }) :=
  .of_env _ _ (by simp) rfl

theorem rdFifo_onward {n : Nat} {s t : State} {bytes : List Byte} (h : rdFifo n s = some (bytes, t)) : Onward s t := by
  obtain ⟨-, -, rfl⟩ := rdFifo_spec h
  exact (turn_onward s).trans (dropFifo_onward n _)

theorem drained_onward (total n : Nat) (s : State) : Onward s (drained total n s) :=
  (dropFifo_onward n s).trans (.of_eng _ _)

theorem residualDropped_onward (s : State) : Onward s (residualDropped s) := by
  unfold residualDropped
  refine Onward.trans ?_ (turn_onward _)
  split
  · exact (turn_onward s).trans ((turn_onward _).trans (dropFifo_onward _ _))
  · exact turn_onward s

theorem programLength_onward (total : Nat) (s : State) : Onward s (programLength total s) := by
  unfold programLength
  split
  · exact (cmdSetLengthMode_onward _ s).trans ((Onward.of_eng _ _).trans (cmdSetThreshold_onward _ _))
  · exact Onward.of_eng s s.eng

theorem recover_onward (s : State) : Onward s (recover s) :=
  (cmdFlushRx_onward s).trans <| (cmdFlushTx_onward _).trans <| (cmdSetThreshold_onward _ _).trans <|
    (cmdSetLengthMode_onward _ _).trans <| (cmdEnterRx_onward _).trans <|
    (confirmRx_agentsOnly _ _).onward.trans (.of_eng _ _)

/-! ### Registers and settings after an operation -/

@[simp] theorem residualDropped_fifoThr (s : State) : (residualDropped s).env.fifoThr = s.env.fifoThr := by
  unfold residualDropped
  split <;> simp

@[simp] theorem residualDropped_chipLengthMode (s : State) :
    (residualDropped s).env.chipLengthMode = s.env.chipLengthMode := by
  unfold residualDropped
  split <;> simp

theorem programLength_eng (total : Nat) (s : State) : (programLength total s).eng =
    { s.eng with lengthMode := if usesFixed s.cfg total then .fixed else s.eng.lengthMode } := by
  by_cases hf : usesFixed s.cfg total <;> simp [programLength, hf, cmdSetThreshold, cmdSetLengthMode, Engine.fixedLength]

theorem programLength_fifoThr (total : Nat) (s : State) : (programLength total s).env.fifoThr =
    if usesFixed s.cfg total then s.cfg.fifoThrRead else s.env.fifoThr := by
  by_cases hf : usesFixed s.cfg total <;> simp [programLength, hf, cmdSetThreshold, cmdSetLengthMode]

theorem programLength_chipLengthMode (total : Nat) (s : State) : (programLength total s).env.chipLengthMode =
    if usesFixed s.cfg total then .fixed (BitVec.ofNat 8 total) else s.env.chipLengthMode := by
  by_cases hf : usesFixed s.cfg total <;> simp [programLength, hf, cmdSetThreshold, cmdSetLengthMode]

/-- The state once a classified header has been stored and the chip programmed for its frame (R170 to R172). -/
def headerAccepted (c : Classified) (h : List Byte) (s : State) : State :=
  let u := programLength c.expected (appendBounded c.expected h (s.setEng (s.eng.classified c)))
  u.setEng (u.eng.goto .readData)

/-- A classified header's total is above the cap, or the header is stored (R172). -/
theorem acceptHeader_next {c : Classified} {h : List Byte} {s t : State} (hn : acceptHeader c h s = .next t) :
    raiseAbort .frameTooLarge s = .next t ∨ t = (headerAccepted c h s).setResult .noFrame := by
  unfold acceptHeader at hn
  split at hn
  · exact .inl hn
  · cases hn
    exact .inr rfl

theorem headerAccepted_onward (c : Classified) (h : List Byte) (s : State) : Onward s (headerAccepted c h s) :=
  (Onward.of_eng s _).trans <| (Onward.of_eng _ _).trans <| (programLength_onward _ _).trans (.of_eng _ _)

theorem headerAccepted_eng (c : Classified) (h : List Byte) (s : State) : (headerAccepted c h s).eng =
    { (s.eng.classified c).append c.expected h with
      lengthMode := if usesFixed s.cfg c.expected then .fixed else s.eng.lengthMode, state := .readData } := by
  simp only [headerAccepted, State.setEng_eng, programLength_eng]
  rfl

theorem headerAccepted_fifoThr (c : Classified) (h : List Byte) (s : State) : (headerAccepted c h s).env.fifoThr =
    if usesFixed s.cfg c.expected then s.cfg.fifoThrRead else s.env.fifoThr :=
  programLength_fifoThr _ _

theorem headerAccepted_chipLengthMode (c : Classified) (h : List Byte) (s : State) :
    (headerAccepted c h s).env.chipLengthMode =
      if usesFixed s.cfg c.expected then .fixed (BitVec.ofNat 8 c.expected) else s.env.chipLengthMode :=
  programLength_chipLengthMode _ _

@[simp] theorem recover_eng (s : State) : (recover s).eng = Engine.rearmed := rfl

@[simp] theorem recover_fifoThr (s : State) : (recover s).env.fifoThr = s.cfg.fifoThrInitial := by
  simp only [recover, State.setEng_env, (confirmRx_agentsOnly _ _).fifoThr]
  simp [cmdEnterRx, cmdSetLengthMode, cmdSetThreshold, cmdFlushTx, cmdFlushRx]

@[simp] theorem recover_chipLengthMode (s : State) : (recover s).env.chipLengthMode = .infinite := by
  simp only [recover, State.setEng_env, (confirmRx_agentsOnly _ _).chipLengthMode]
  simp [cmdEnterRx, cmdSetLengthMode]

/-! ### How the ReadData step ends (R180, R188) -/

theorem raiseAbort_next {k : AbortKind} {s t : State} (h : raiseAbort k s = .next t) :
    t = ((emit (.kind k.kind) s).setEng (s.eng.goto .initRx)).setResult .noFrame := by
  cases h
  rfl

theorem returnNoFrame_next {s t : State} (h : returnNoFrame s = .next t) : t = s.setResult .noFrame := by
  cases h
  rfl

/-- A completion that answers gives up a Mode T frame that does not decode, or delivers the frame the registers hold (R188, R189). -/
theorem complete_next {s t : State} {t0 : Nat} (hs : s.eng.syncTime = some t0) (h : complete s = .next t) :
    raiseAbort .lineDecodeFailure (residualDropped s) = .next t ∨
    ∃ out, frameBytes s.eng = some out ∧ t = ((residualDropped s).setEng (s.eng.goto .initRx)).setResult
      (.frameReady ⟨out, (residualDropped s).env.rssi, t0, s.eng.mode, s.eng.block⟩) := by
  have hsync : (residualDropped s).eng.syncTime = some t0 := by rw [residualDropped_eng, hs]
  simp only [complete_eq, readSyncTime_some hsync, residualDropped_eng] at h
  cases hf : frameBytes s.eng with
  | none => rw [hf] at h; exact .inl h
  | some out => rw [hf] at h; cases h; exact .inr ⟨out, rfl, rfl⟩

/-- The induction over the drain loop (R180), once: what turns and drains keep holds wherever the loop ends, which is an overflow, no
more to drain, or a completion at the total. -/
theorem drainLoop_ends {P : State → Prop} {total : Nat} (hturn : ∀ s, P s → P (turn s))
    (hdrain : ∀ n s, P s → P (drained total n s)) (fuel : Nat) {s t : State} (hs : P s)
    (h : drainLoop total fuel s = .next t) :
    ∃ u, P u ∧ (raiseAbort .rxOverflow u = .next t ∨ returnNoFrame u = .next t ∨
      (u.eng.counter = total ∧ complete u = .next t)) := by
  induction fuel generalizing s with
  | zero => exact ⟨s, hs, .inr (.inl h)⟩
  | succ fuel ih =>
    have h1 := hturn _ hs
    have h2 := hturn _ h1
    have h4 := fun n => hdrain n _ (hturn _ h2)
    rw [drainLoop_succ] at h
    dsimp only at h
    split_ifs at h with hov hfull hnone hfilled
    · exact ⟨_, h1, .inl h⟩
    · exact ⟨_, h1, .inr (.inr ⟨by rw [turn_keeps_eng, hfull], h⟩)⟩
    · exact ⟨_, h2, .inr (.inl h)⟩
    · exact ⟨_, h4 _, .inr (.inr ⟨hfilled, h⟩)⟩
    · exact ih (h4 _) h

end Sys2Proof.Machine
end

section
/-! SUPPORT. The invariant of the machine (`Inv`): every operation keeps it from where its request has been taken, and so does every
step. With it stand the other statements about the state and its frames. -/

namespace Sys2Proof.Machine

/-! ### The invariant inside a step -/

/-- The invariant while an operation runs: what was presented has been taken (log 1). -/
structure Running (s : State) : Prop where
  inv : Inv s
  taken : s.request = none

/-- The buffer is as long as the count (R25). -/
theorem Running.buf_length {s : State} (h : Running s) : s.eng.buf.length = s.eng.counter := h.inv.memory.2

/-- The rows of R30 that hold more than stale registers. -/
theorem Inv.in_waitForSync {s : State} (h : Inv s) (hw : s.eng.state = .waitForSync) :
    s.eng.clear ∧ s.eng.syncTime = none := by
  have heng := h.engine
  rwa [Engine.inv, hw] at heng

theorem Inv.in_waitForData {s : State} (h : Inv s) (hw : s.eng.state = .waitForData) :
    s.eng.clear ∧ s.eng.syncTime.isSome := by
  have heng := h.engine
  rwa [Engine.inv, hw] at heng

theorem Inv.in_readData {s : State} (h : Inv s) (hw : s.eng.state = .readData) : s.eng.collecting s.cfg := by
  have heng := h.engine
  rwa [Engine.inv, hw] at heng

/-- What has to be shown of an operation beyond its frame: its registers, the settings and the sync time. -/
theorem Running.of_onward {s t : State} (h : Running s) (o : Onward s t) (hbuf : t.eng.buf.length = t.eng.counter)
    (heng : t.eng.inv s.cfg) (hset : settingsKept t) (hclk : ∀ t0, t.eng.syncTime = some t0 → t0 ≤ t.env.now) :
    Running t := by
  obtain ⟨inv, hreq⟩ := h
  obtain ⟨k, hq⟩ := o.queue
  have hreq' : t.request = none := o.request.trans hreq
  refine ⟨⟨?_, ⟨o.capacity inv.memory.1, hbuf⟩, ?_, hset, hclk, ?_, ?_, ?_, ?_⟩, hreq'⟩
  · rw [o.cfg]; exact inv.config
  · rw [o.cfg]; exact heng
  · rw [hq, List.length_drop]; exact (Nat.sub_le _ _).trans inv.queue
  · rw [hq]; exact fun f hf => inv.queued f (List.mem_of_mem_drop hf)
  · rw [o.result]; exact inv.delivered
  · intro w hw
    rw [hreq'] at hw
    cases hw

/-- The settings agree with the engine as long as neither they nor what they mirror changes (R27). -/
theorem settingsKept_congr {s t : State} (hcfg : t.cfg = s.cfg) (hthr : t.env.fifoThr = s.env.fifoThr)
    (hchip : t.env.chipLengthMode = s.env.chipLengthMode) (hstate : t.eng.state = s.eng.state)
    (hmode : t.eng.lengthMode = s.eng.lengthMode) (hexp : t.eng.expected = s.eng.expected) (h : settingsKept s) :
    settingsKept t := by
  unfold settingsKept
  rw [hcfg, hthr, hchip, hstate, hmode, hexp]
  exact h

/-- What writes neither a register nor a setting keeps the invariant. -/
theorem Running.of_same {s t : State} (h : Running s) (o : Onward s t) (heng : t.eng = s.eng)
    (hthr : t.env.fifoThr = s.env.fifoThr) (hchip : t.env.chipLengthMode = s.env.chipLengthMode) : Running t := by
  have hset := settingsKept_congr o.cfg hthr hchip (by rw [heng]) (by rw [heng]) (by rw [heng]) h.inv.settings
  refine h.of_onward o ?_ ?_ hset ?_ <;> rw [heng]
  · exact h.buf_length
  · exact h.inv.engine
  · exact fun t0 ht0 => (h.inv.clock t0 ht0).trans o.clock

theorem Running.of_agents {s t : State} (h : Running s) (a : AgentsOnly s t) : Running t :=
  h.of_same a.onward a.eng a.fifoThr a.chipLengthMode

theorem Running.turn {s : State} (h : Running s) : Running (turn s) := h.of_agents (turn_agentsOnly s)

theorem Running.emit {s : State} (h : Running s) (r : Report) : Running (emit r s) :=
  h.of_agents (AgentsOnly.of_reports s _)

theorem Running.cmdFlushRx {s : State} (h : Running s) : Running (cmdFlushRx s) :=
  h.of_same (cmdFlushRx_onward s) (turn_keeps_eng s) (turn_fifoThr s) (turn_chipLengthMode s)

theorem Running.rdFifo {n : Nat} {s t : State} {bytes : List Byte} (h : Running s) (hr : rdFifo n s = some (bytes, t)) :
    Running t := by
  have o := rdFifo_onward hr
  obtain ⟨-, -, rfl⟩ := rdFifo_spec hr
  exact h.of_same o (turn_keeps_eng s) (turn_fifoThr s) (turn_chipLengthMode s)

theorem Running.residualDropped {s : State} (h : Running s) : Running (residualDropped s) :=
  h.of_same (residualDropped_onward s) (residualDropped_eng s) (residualDropped_fifoThr s)
    (residualDropped_chipLengthMode s)

theorem Running.setResult {s : State} (h : Running s) {r : PollResult} (hr : goodResult r) : Running (s.setResult r) :=
  ⟨{ h.inv with delivered := hr }, h.taken⟩

theorem Running.setCallResult {s : State} (h : Running s) (r : CallResult) : Running (s.setCallResult r) :=
  ⟨{ h.inv with }, h.taken⟩

/-- In InitRx every register but `state` is stale, so leaving for it keeps the invariant (R30). -/
theorem Running.goto_initRx {s : State} (h : Running s) : Running (s.setEng (s.eng.goto .initRx)) := by
  obtain ⟨hthr, -, hinf, hfix⟩ := h.inv.settings
  refine h.of_onward (.of_eng _ _) h.buf_length trivial ⟨hthr, ?_, hinf, fun n hn => ?_⟩ h.inv.clock
  · rintro (hst | hst) <;> cases hst
  · obtain ⟨hmode, hlo, hhi, -⟩ := hfix n hn
    exact ⟨hmode, hlo, hhi, fun hst => by cases hst⟩

/-! ### Ends of a poll -/

theorem Running.returnNoFrame {s t : State} (h : Running s) (hn : returnNoFrame s = .next t) : Running t := by
  rw [returnNoFrame_next hn]
  exact h.setResult trivial

theorem Running.raiseAbort {k : AbortKind} {s t : State} (h : Running s) (hn : raiseAbort k s = .next t) : Running t := by
  rw [raiseAbort_next hn]
  exact (h.emit _).goto_initRx.setResult trivial

theorem Running.retryHeader {s t : State} (h : Running s) (hn : retryHeader s = .next t) : Running t :=
  (h.emit _).returnNoFrame hn

/-! ### InitRx -/

/-- The recovery puts the registers and the settings where WaitForSync wants them (R143, R144). -/
theorem Running.recover {s : State} (h : Running s) : Running (recover s) := by
  obtain ⟨hlo, hcap, hread, hinit, -⟩ := h.inv.config
  have o := recover_onward s
  have hclear : Engine.rearmed.clear := ⟨rfl, rfl, rfl, rfl, rfl, rfl, rfl⟩
  refine h.of_onward o rfl ⟨hclear, rfl⟩ ⟨?_, fun _ => ?_, fun _ => rfl, fun n hn => ?_⟩ (fun t0 ht0 => by cases ht0)
  · rw [recover_fifoThr]
    exact ⟨hread.trans hinit, hcap⟩
  · rw [recover_fifoThr, o.cfg]
  · rw [recover_chipLengthMode] at hn
    cases hn

/-! ### The header (R160, R165 to R172) -/

/-- The registers after an accepted header are those of a frame in progress (R30, R170, R171). -/
theorem collecting_of_classifiesAs {i : Instr} {c : Classified} {h : List Byte} {e : Engine} {cfg : Config}
    {m : LengthMode} (hi : classifiesAs i c h) (he : e.clear) (hs : e.syncTime.isSome)
    (hm : m = .fixed ↔ c.expected < cfg.fixedLenCeiling.val) :
    Engine.collecting cfg { (e.classified c).append c.expected h with lengthMode := m, state := .readData } := by
  obtain ⟨hpair, hlo, hhi, hlen⟩ := classifiesAs_bounds hi
  have hkept := headerKept_of_classifiesAs hi he
  obtain ⟨-, hcnt, -⟩ := he
  have hcounter : ((e.classified c).append c.expected h).counter = min 3 c.expected := by simp [hcnt, hlen]
  exact ⟨c.expected, rfl, by dsimp only; omega, by dsimp only; omega, hhi, hpair, hs, hkept, hm⟩

/-- The chip is in Infinite mode as long as the engine records no Fixed length (R27). -/
theorem settingsKept.chip_infinite {s : State} (h : settingsKept s) (hm : s.eng.lengthMode = .infinite) :
    s.env.chipLengthMode = .infinite := by
  obtain ⟨-, -, -, hfix⟩ := h
  cases hchip : s.env.chipLengthMode with
  | infinite => rfl
  | fixed n =>
    obtain ⟨hfixed, -⟩ := hfix n hchip
    rw [hm] at hfixed
    cases hfixed

/-- The chip holds the total of the frame whose header was accepted, where it is below the ceiling (R27, R171). -/
theorem settingsKept_headerAccepted {c : Classified} {hd : List Byte} {s : State} (hcfg : s.cfg.wf) (h : settingsKept s)
    (hm : s.eng.lengthMode = .infinite) (hlo : 2 ≤ c.expected) : settingsKept (headerAccepted c hd s) := by
  obtain ⟨hini, hcap, hread, hle, -⟩ := hcfg
  have hchip := h.chip_infinite hm
  obtain ⟨hthr, -⟩ := h
  have hceil := s.cfg.fixedLenCeiling.isLt
  unfold settingsKept
  rw [headerAccepted_eng, headerAccepted_fifoThr, headerAccepted_chipLengthMode, (headerAccepted_onward c hd s).cfg,
    hchip, hm]
  by_cases hf : usesFixed s.cfg c.expected = true
  · have hlt : c.expected < s.cfg.fixedLenCeiling.val := by simpa [usesFixed] using hf
    have hnat : (BitVec.ofNat 8 c.expected).toNat = c.expected := by
      rw [BitVec.toNat_ofNat, Nat.mod_eq_of_lt (by omega)]
    rw [if_pos hf, if_pos hf, if_pos hf]
    refine ⟨⟨hread, hle.trans hcap⟩, nofun, nofun, fun n hn => ?_⟩
    cases hn
    rw [hnat]
    exact ⟨rfl, hlo, hlt, fun _ => rfl⟩
  · rw [if_neg hf, if_neg hf, if_neg hf]
    exact ⟨hthr, nofun, fun _ => rfl, nofun⟩

/-- A classified header is too large, or begins a frame with the chip's settings in step (R170 to R172). -/
theorem Running.acceptHeader {i : Instr} {c : Classified} {hd : List Byte} {s t : State} (h : Running s)
    (hw : s.eng.state = .waitForData) (hi : classifiesAs i c hd) (hn : acceptHeader c hd s = .next t) : Running t := by
  obtain hab | rfl := acceptHeader_next hn
  · exact h.raiseAbort hab
  · obtain ⟨hclear, hsync⟩ := h.inv.in_waitForData hw
    have hinf : s.eng.lengthMode = .infinite := by
      obtain ⟨-, -, -, -, hinf, -⟩ := hclear
      exact hinf
    have hmode : (if usesFixed s.cfg c.expected then LengthMode.fixed else s.eng.lengthMode) = .fixed ↔
        c.expected < s.cfg.fixedLenCeiling.val := by
      simp [usesFixed, hinf]
    obtain ⟨-, hlo, -⟩ := classifiesAs_bounds hi
    have o := headerAccepted_onward c hd s
    have hset := settingsKept_headerAccepted (hd := hd) h.inv.config h.inv.settings hinf hlo
    refine (h.of_onward o ?_ ?_ hset ?_).setResult trivial <;> rw [headerAccepted_eng]
    · exact append_length _ _ _ h.buf_length
    · exact collecting_of_classifiesAs hi hclear hsync hmode
    · exact fun t0 ht0 => (h.inv.clock t0 ht0).trans o.clock

theorem Running.execHeader {i : Instr} {s t : State} (h : Running s) (hw : s.eng.state = .waitForData)
    (hh : i.isHeader = true) (hx : exec i s = .next t) : Running t := by
  obtain ⟨c, hd, hi, heq⟩ | heq := exec_header hh
  · exact h.acceptHeader hw hi (heq s ▸ hx)
  · exact h.retryHeader (heq s ▸ hx)

theorem Running.readHeader {s t : State} (h : Running s) (hw : s.eng.state = .waitForData)
    (hn : readHeader s = .next t) : Running t := by
  unfold Machine.readHeader at hn
  split at hn
  · next h0 h1 h2 u hr =>
    rw [runHeader_eq_exec] at hn
    exact (h.rdFifo hr).execHeader (by rw [rdFifo_eng hr, hw]) (headerInstr_isHeader h0 h1 h2) hn
  · cases hn

/-! ### WaitForData and WaitForSync (R147, R160) -/

theorem Running.waitForDataStep {s t : State} (h : Running s) (hw : s.eng.state = .waitForData)
    (hn : waitForDataStep s = .next t) : Running t := by
  obtain ⟨-, hsync⟩ := h.inv.in_waitForData hw
  obtain ⟨t0, ht0⟩ := Option.isSome_iff_exists.1 hsync
  replace hn : exec .pollWaitForData s = .next t := hn
  rw [execPollWaitForData_eq s t0 ht0] at hn
  split_ifs at hn
  · exact h.turn.raiseAbort hn
  · exact h.turn.turn.raiseAbort hn
  · exact h.turn.turn.turn.readHeader (by simpa using hw) hn
  · exact h.turn.turn.turn.returnNoFrame hn

/-- Sync seen now: the registers stay clear and the engine waits for data (R149). -/
theorem Running.syncSeen {s : State} (h : Running s) (hw : s.eng.state = .waitForSync) :
    Running (s.setEng (s.eng.syncSeen s.env.now)) := by
  obtain ⟨hthr, hini, hinf, hfix⟩ := h.inv.settings
  obtain ⟨hclear, -⟩ := h.inv.in_waitForSync hw
  refine h.of_onward (.of_eng _ _) h.buf_length ⟨hclear, rfl⟩
    ⟨hthr, fun _ => hini (.inl hw), hinf, fun n hn => ?_⟩ (fun t0 ht0 => by cases ht0; exact le_rfl)
  obtain ⟨hmode, hlo, hhi, -⟩ := hfix n hn
  exact ⟨hmode, hlo, hhi, fun hst => by cases hst⟩

theorem Running.execPollWaitForSync {s t : State} (h : Running s) (hw : s.eng.state = .waitForSync)
    (hn : execPollWaitForSync s = .next t) : Running t := by
  simp only [Machine.execPollWaitForSync] at hn
  split_ifs at hn
  · exact h.turn.raiseAbort hn
  · exact (h.turn.turn.turn.syncSeen (by simpa using hw)).waitForDataStep rfl hn
  · exact h.turn.turn.turn.cmdFlushRx.returnNoFrame hn
  · exact h.turn.turn.turn.returnNoFrame hn

/-! ### ReadData (R180, R188) -/

/-- Collecting a frame of `total` bytes, the invariant of the drain loop. -/
structure Collecting (total : Nat) (s : State) : Prop where
  running : Running s
  state : s.eng.state = .readData
  expected : s.eng.expected = some total

/-- What R30 says of the registers while a frame is collected. -/
theorem Collecting.registers {total : Nat} {s : State} (h : Collecting total s) :
    2 ≤ s.eng.counter ∧ s.eng.counter ≤ total ∧ total ≤ 432 ∧ legalPair s.eng.mode s.eng.block ∧
      s.eng.syncTime.isSome ∧ headerKept s.eng total ∧
      (s.eng.lengthMode = .fixed ↔ total < s.cfg.fixedLenCeiling.val) := by
  obtain ⟨hrun, hst, hexp⟩ := h
  obtain ⟨n, hn, hrest⟩ := hrun.inv.in_readData hst
  rw [hexp] at hn
  cases hn
  exact hrest

theorem Collecting.turn {total : Nat} {s : State} (h : Collecting total s) : Collecting total (turn s) := by
  obtain ⟨hrun, hst, hexp⟩ := h
  exact ⟨hrun.turn, by rw [turn_keeps_eng, hst], by rw [turn_keeps_eng, hexp]⟩

/-- A drain appends to the frame and keeps its header (R65, R66, R99). -/
theorem Collecting.drained {total : Nat} {s : State} (h : Collecting total s) (n : Nat) :
    Collecting total (drained total n s) := by
  obtain ⟨hlo, hhi, hmax, hpair, hsync, hkept, hmode⟩ := h.registers
  obtain ⟨hrun, hst, hexp⟩ := h
  have hset : settingsKept (Machine.drained total n s) := settingsKept_congr rfl rfl rfl rfl rfl rfl hrun.inv.settings
  refine ⟨hrun.of_onward (drained_onward total n s) (append_length _ _ _ hrun.buf_length) ?_ hset hrun.inv.clock, hst, hexp⟩
  have hst' : (Machine.drained total n s).eng.state = .readData := hst
  rw [Engine.inv, hst']
  exact ⟨total, hexp, hlo.trans (Nat.le_add_right _ _), append_counter_le _ _ _ hhi, hmax, hpair, hsync,
    headerKept_append _ hkept, hmode⟩

/-- A completed frame is given up, or delivered as a good one (R188). -/
theorem Collecting.complete {total : Nat} {s t : State} (h : Collecting total s) (hfull : s.eng.counter = total)
    (hn : complete s = .next t) : Running t := by
  obtain ⟨-, -, -, -, hsync, hkept, -⟩ := h.registers
  obtain ⟨t0, ht0⟩ := Option.isSome_iff_exists.1 hsync
  obtain ⟨hrun, -⟩ := h
  obtain hab | ⟨out, hout, rfl⟩ := complete_next ht0 hn
  · exact hrun.residualDropped.raiseAbort hab
  · have hgood : goodFrame ⟨out, (Machine.residualDropped s).env.rssi, t0, s.eng.mode, s.eng.block⟩ :=
      goodFrame_of_headerKept hkept (hrun.buf_length.trans hfull) hout rfl rfl
    have hini := hrun.residualDropped.goto_initRx
    rw [residualDropped_eng] at hini
    exact hini.setResult hgood

theorem Running.execPollReadData {s t : State} (h : Running s) (hw : s.eng.state = .readData)
    (hn : exec .pollReadData s = .next t) : Running t := by
  obtain ⟨total, hexp, -⟩ := h.inv.in_readData hw
  rw [execPollReadData_eq s total hexp] at hn
  obtain ⟨u, hu, hab | hno | ⟨hfull, hc⟩⟩ := drainLoop_ends (P := Collecting total) (fun _ h => h.turn)
    (fun n _ h => h.drained n) _ ⟨h, hw, hexp⟩ hn
  · exact hu.running.raiseAbort hab
  · exact hu.running.returnNoFrame hno
  · exact hu.complete hfull hc

/-! ### Every operation and every step -/

theorem Running.execPoll {s t : State} (h : Running s) (hx : exec (pollInstr s.eng.state) s = .next t) : Running t := by
  cases hst : s.eng.state with
  | initRx => rw [hst] at hx; exact h.recover.returnNoFrame hx
  | waitForSync => rw [hst] at hx; exact h.execPollWaitForSync hst hx
  | waitForData => rw [hst] at hx; exact h.waitForDataStep hst hx
  | readData => rw [hst] at hx; exact h.execPollReadData hst hx

/-- The operations a state that meets the invariant can be presented with: the poll its state register selects, a header window in
WaitForData, a symbol or a call (R140; log 6). -/
def fitsState (i : Instr) (a : AcqState) : Prop :=
  i = pollInstr a ∨ (i.isPoll = false ∧ (i.isHeader = true → a = .waitForData))

theorem Inv.fetched_fits {s : State} (h : Inv s) {i : Instr} (hd : decode (fetchWord s) = .ok i) :
    fitsState i s.eng.state := by
  unfold fetchWord at hd
  split at hd
  · next w hw => exact .inr (h.request w hw i hd)
  · rw [decode_stateCode] at hd
    cases hd
    exact .inl rfl

theorem Running.exec {i : Instr} {s t : State} (h : Running s) (hi : fitsState i s.eng.state)
    (hx : exec i s = .next t) : Running t := by
  obtain rfl | ⟨hp, hhdr⟩ := hi
  · exact h.execPoll hx
  · cases hh : i.isHeader with
    | true => exact h.execHeader (hhdr hh) hh hx
    | false =>
      obtain ⟨r, hr⟩ := exec_eq_answer hp hh
      rw [hr] at hx
      cases hx
      exact h.setCallResult r

@[simp] theorem beginStep_eng (i : Instr) (s : State) : (beginStep i s).eng = s.eng := by
  unfold beginStep
  split <;> simp

/-- Once the presented operation is taken nothing is presented, and the host's wait is steps of the other agents (R250). -/
theorem Inv.beginStep {s : State} (h : Inv s) (i : Instr) : Running (beginStep i s) := by
  have htaken : Running (s.setRequest none) := ⟨{ h with request := fun w hw => by cases hw }, rfl⟩
  unfold Machine.beginStep
  split
  · exact htaken.of_agents (awaitPoll_agentsOnly _).1
  · exact htaken

/-- The host queues good frames alone, and no more than the queue holds (R254, R255). -/
theorem Inv.acceptResult {s : State} (h : Inv s) : Inv (acceptResult s) := by
  unfold Machine.acceptResult
  split
  · exact h
  · next f hf =>
    unfold pushFrame
    split
    · next hroom =>
      have hgood : goodFrame f := by simpa [hf, goodResult] using h.delivered
      exact { h with
        queue := by simpa using hroom
        queued := by
          intro g hg
          obtain hg | hg := List.mem_append.1 hg
          · exact h.queued g hg
          · rwa [List.mem_singleton.1 hg] }
    · exact { h with }

/-- Settles O58: from the fetch to the operation's end the invariant is `Running`, which each operation keeps. -/
theorem everyStepKeepsTheInvariant : Obligations.EveryStepKeepsTheInvariant := by
  intro s t h hstep
  obtain ⟨i, u, hd, -, hx, rfl⟩ := step_next hstep
  have hfits : fitsState i (Machine.beginStep i s).eng.state := by
    rw [beginStep_eng]
    exact h.fetched_fits hd
  have hu : Inv u := ((h.beginStep i).exec hfits hx).inv
  split
  · exact hu.acceptResult
  · exact hu

/-- Settles O60: the invariant of the next state says it of the result. -/
theorem deliveredFramesAreWellFormed : Obligations.DeliveredFramesAreWellFormed := by
  intro s t f h hstep hf
  have hgood := (everyStepKeepsTheInvariant s t h hstep).delivered
  rwa [hf] at hgood

/-! ### The reset state, and AppendBounded (R47, R66) -/

/-- Settles O59: after reset the engine is in InitRx, where R30 asks nothing of the other registers. -/
theorem resetMeetsTheInvariant : Obligations.ResetMeetsTheInvariant where
  config := by decide
  memory := reset_memory_wf
  engine := trivial
  settings := ⟨by decide, nofun, fun _ => rfl, nofun⟩
  clock := nofun
  queue := by decide
  queued := nofun
  delivered := trivial
  request := nofun

/-- Settles O56. -/
theorem resetRegisterValues : Obligations.ResetRegisterValues := ⟨rfl, rfl⟩

/-- Settles O46: the writes are those of `Engine.append`, which keeps both facts of R25. -/
theorem appendBoundedDropsTheSurplus : Obligations.AppendBoundedDropsTheSurplus :=
  fun total bs s hle hlen => ⟨rfl, append_length s.eng total bs hlen, append_counter_le s.eng total bs hle⟩

/-! ### What a poll in ReadData delivers (R188, R189) -/

/-- The registers that a poll in ReadData reads and its drains leave (R26, R28, R29). -/
def sameHeader (s u : State) : Prop :=
  u.eng.expected = s.eng.expected ∧ u.eng.syncTime = s.eng.syncTime ∧ u.eng.mode = s.eng.mode ∧ u.eng.block = s.eng.block

theorem sameHeader_turn {s u : State} (h : sameHeader s u) : sameHeader s (turn u) := by
  simpa only [sameHeader, turn_keeps_eng] using h

/-- Settles O38: the loop delivers only through a completion at the total, and its drains leave the header's registers. -/
theorem framesAreDeliveredOnlyComplete : Obligations.FramesAreDeliveredOnlyComplete := by
  intro s t total t0 f hexp hsync hx hf
  rw [execPollReadData_eq s total hexp] at hx
  obtain ⟨u, ⟨huexp, husync, humode, hublock⟩, hab | hno | ⟨hfull, hc⟩⟩ := drainLoop_ends (P := sameHeader s)
    (fun _ h => sameHeader_turn h) (fun _ _ h => h) _ ⟨rfl, rfl, rfl, rfl⟩ hx
  · rw [raiseAbort_next hab] at hf
    cases hf
  · rw [returnNoFrame_next hno] at hf
    cases hf
  · obtain hab | ⟨out, hout, rfl⟩ := complete_next (husync.trans hsync) hc
    · rw [raiseAbort_next hab] at hf
      cases hf
    · cases hf
      refine ⟨hfull, huexp.trans hexp, rfl, rfl, rfl, humode, hublock, fun hT => ?_, fun hT => ?_⟩
      · simpa [frameBytes, humode, hT] using hout
      · simpa [frameBytes, humode, hT, eq_comm] using hout

end Sys2Proof.Machine
end

section
/-! SUPPORT. The symbols of a byte sequence as slices of its bit stream (R11, R70 to R73, R94). -/

namespace Sys2Proof.Machine

/-- The 6 bits of a symbol, most significant first (R70). -/
def symBits (x : Sym) : List Bool :=
  [x.getLsbD 5, x.getLsbD 4, x.getLsbD 3, x.getLsbD 2, x.getLsbD 1, x.getLsbD 0]

theorem symBits_get (x : Sym) {j : Nat} (hj : j < 6) : (symBits x)[j]? = some (x.getLsbD (5 - j)) := by
  interval_cases j <;> rfl

/-- Symbol `i` of a list takes the places from `6i` on of its bits. -/
theorem flatMap_symBits_get {xs : List Sym} {i : Nat} {x : Sym} (hx : xs[i]? = some x) {j : Nat} (hj : j < 6) :
    (xs.flatMap symBits)[6 * i + j]? = some (x.getLsbD (5 - j)) := by
  induction xs generalizing i with
  | nil => cases hx
  | cons y ys ih =>
    have hy : (symBits y).length = 6 := rfl
    rw [List.flatMap_cons]
    cases i with
    | zero =>
      cases hx
      rw [Nat.mul_zero, Nat.zero_add, List.getElem?_append_left (by omega), symBits_get _ hj]
    | succ i =>
      rw [List.getElem?_append_right (by omega), hy, show 6 * (i + 1) + j - 6 = 6 * i + j by omega]
      exact ih hx

/-- The bits of one symbol, those of the byte it is cut from (R94). -/
theorem symBits_symAt0 (b0 : Byte) : symBits (symAt0 b0) =
    [b0.getLsbD 7, b0.getLsbD 6, b0.getLsbD 5, b0.getLsbD 4, b0.getLsbD 3, b0.getLsbD 2] := by
  simp [symBits, symAt0]

theorem symBits_symAt6 (b0 b1 : Byte) : symBits (symAt6 b0 b1) =
    [b0.getLsbD 1, b0.getLsbD 0, b1.getLsbD 7, b1.getLsbD 6, b1.getLsbD 5, b1.getLsbD 4] := by
  simp only [symBits, symAt6_bit]
  simp

theorem symBits_symAt4 (b1 b2 : Byte) : symBits (symAt4 b1 b2) =
    [b1.getLsbD 3, b1.getLsbD 2, b1.getLsbD 1, b1.getLsbD 0, b2.getLsbD 7, b2.getLsbD 6] := by
  simp only [symBits, symAt4_bit]
  simp

theorem symBits_symAt2 (b2 : Byte) : symBits (symAt2 b2) =
    [b2.getLsbD 5, b2.getLsbD 4, b2.getLsbD 3, b2.getLsbD 2, b2.getLsbD 1, b2.getLsbD 0] := by
  simp [symBits, symAt2]

/-- The symbols' bits are the bit stream but for the spare bits at its end (R72, R73). -/
theorem symBits_isPrefix_bitstream : ∀ s : List Byte, (symbolsOf s).flatMap symBits <+: bitstream s
  | [] => ⟨[], rfl⟩
  | [b0] => ⟨[b0.getLsbD 1, b0.getLsbD 0], by simp [symbolsOf, symBits_symAt0, bitstream, byteBits]⟩
  | [b0, b1] => ⟨[b1.getLsbD 3, b1.getLsbD 2, b1.getLsbD 1, b1.getLsbD 0],
      by simp [symbolsOf, symBits_symAt0, symBits_symAt6, bitstream, byteBits]⟩
  | b0 :: b1 :: b2 :: rest => by
    have hgroup : symBits (symAt0 b0) ++ (symBits (symAt6 b0 b1) ++ (symBits (symAt4 b1 b2) ++ symBits (symAt2 b2))) =
        byteBits b0 ++ (byteBits b1 ++ byteBits b2) := by
      rw [symBits_symAt0, symBits_symAt6, symBits_symAt4, symBits_symAt2]
      rfl
    obtain ⟨spare, hspare⟩ := symBits_isPrefix_bitstream rest
    refine ⟨spare, ?_⟩
    calc (symbolsOf (b0 :: b1 :: b2 :: rest)).flatMap symBits ++ spare
      _ = symBits (symAt0 b0) ++ (symBits (symAt6 b0 b1) ++ (symBits (symAt4 b1 b2) ++ symBits (symAt2 b2))) ++
            ((symbolsOf rest).flatMap symBits ++ spare) := by
        simp only [symbolsOf, List.flatMap_cons, List.append_assoc]
      _ = bitstream (b0 :: b1 :: b2 :: rest) := by
        rw [hgroup, hspare]
        simp only [bitstream, List.flatMap_cons, List.append_assoc]

/-- Settles O9: symbol `i` stands at the places of its bits, and a decoded byte is the values of two neighbouring symbols. -/
theorem symbolsAreSlicesOfTheBitStream : Obligations.SymbolsAreSlicesOfTheBitStream := by
  refine ⟨symbolsOf_length, fun s i x hx j hj => ?_, fun s d k y hd hk => ?_⟩
  · have hbit := flatMap_symBits_get hx hj
    obtain ⟨hlt, -⟩ := List.getElem?_eq_some_iff.1 hbit
    obtain ⟨spare, hspare⟩ := symBits_isPrefix_bitstream s
    rw [← hspare, List.getElem?_append_left hlt, hbit]
  · obtain ⟨hi, lo, hhi, hlo, hv, hw⟩ := lineDecode_get hd hk
    exact ⟨hi, lo, _, _, hhi, hlo, hv, hw, rfl, rfl⟩

end Sys2Proof.Machine
end

section
/-! SUPPORT. The receive FIFO as a stream of bytes (R61, R62, R208, R212): what a read takes from it, what the other agents add to it,
and what a poll in ReadData stores of it. -/

namespace Sys2Proof.Machine

/-! ### The FIFO read (R62, R63) -/

/-- RD_FIFO on a quiet channel (R62). -/
theorem rdFifo_quiet {n : Nat} {s : State} (hs : s.schedule = []) (h : n ≤ s.env.rxFifo.length) :
    rdFifo n s = some (s.env.rxFifo.take n, s.setEnv { s.env with rxFifo := s.env.rxFifo.drop n }) := by
  rw [rdFifo_of_le h, turn_quiet hs]

/-- RD_FIFO of more bytes than the turn leaves in the FIFO does not answer (R63). -/
theorem rdFifo_eq_none {n : Nat} {s : State} (h : (turn s).env.rxFifo.length < n) : rdFifo n s = none :=
  if_neg (Nat.not_le.2 h)

/-- Settles O47: on a quiet channel the read finds the FIFO as it stands. -/
theorem fifoReadTakesTheOldestBytes : Obligations.FifoReadTakesTheOldestBytes := by
  intro s a z hs hf
  refine ⟨?_, fun n hn => rdFifo_eq_none (by rwa [turn_quiet hs])⟩
  rw [rdFifo_quiet hs (by simp [hf]), hf, List.take_left, List.drop_left]
  rfl

/-! ### Arriving bytes (R212) -/

theorem applyEvent_byte_of_room {s : State} (x : Byte) (h : s.env.rxFifo.length < Params.fifoCapacity) :
    applyEvent s (.byte x) =
      s.setEnv { s.env with rxFifo := s.env.rxFifo ++ [x], reception := s.env.reception.byteIn } := by
  simp only [applyEvent, Env.receive, if_pos h]

theorem applyEvent_byte_of_full {s : State} (x : Byte) (h : Params.fifoCapacity ≤ s.env.rxFifo.length) :
    applyEvent s (.byte x) = s.setEnv { s.env with overflowFlag := true } := by
  simp only [applyEvent, Env.receive, if_neg (Nat.not_lt.2 h)]

/-- Settles O48: the two cases of R212. -/
theorem arrivingBytesFillTheFifo : Obligations.ArrivingBytesFillTheFifo :=
  fun _ x => ⟨applyEvent_byte_of_room x, applyEvent_byte_of_full x⟩

@[simp] theorem consume_env (i : Bool) (s : State) : (consume i s).env = s.env := by
  unfold consume
  split
  · rfl
  · cases i <;> rfl

/-- What an event brings enters the FIFO while there is room (R212). -/
theorem applyEvent_rxFifo (s : State) (e : Event) : (applyEvent s e).env.rxFifo =
    s.env.rxFifo ++ e.arrives.take (Params.fifoCapacity - s.env.rxFifo.length) := by
  cases e with
  | byte b =>
    obtain h | h := Nat.lt_or_ge s.env.rxFifo.length Params.fifoCapacity
    · obtain ⟨k, hk⟩ := Nat.exists_eq_succ_of_ne_zero (Nat.sub_ne_zero_of_lt h)
      rw [applyEvent_byte_of_room b h, hk]
      simp [Event.arrives]
    · rw [applyEvent_byte_of_full b h, Nat.sub_eq_zero_of_le h]
      simp
  | _ => simp [applyEvent, Event.arrives]

/-- The bytes of a list of events enter the FIFO in order, as many as it has room for (R61, R212). -/
theorem applyEvents_rxFifo (es : List Event) (s : State) : (applyEvents s es).env.rxFifo =
    s.env.rxFifo ++ (arrivals es).take (Params.fifoCapacity - s.env.rxFifo.length) := by
  induction es generalizing s with
  | nil => simp [applyEvents, arrivals]
  | cons e es ih =>
    have hlen : Params.fifoCapacity - (applyEvent s e).env.rxFifo.length =
        Params.fifoCapacity - s.env.rxFifo.length - e.arrives.length := by
      simp only [applyEvent_rxFifo, List.length_append, List.length_take]
      omega
    calc (applyEvents (applyEvent s e) es).env.rxFifo
      _ = s.env.rxFifo ++ (e.arrives.take (Params.fifoCapacity - s.env.rxFifo.length) ++
            (arrivals es).take (Params.fifoCapacity - s.env.rxFifo.length - e.arrives.length)) := by
        rw [ih, hlen, applyEvent_rxFifo, List.append_assoc]
      _ = _ := by rw [← List.take_append]; rfl

/-- A turn lets the bytes of its batch into the FIFO, as many as there is room for (R74, R212). -/
theorem turn_rxFifo (s : State) : (turn s).env.rxFifo =
    s.env.rxFifo ++ (arrivals (s.schedule.headD [])).take (Params.fifoCapacity - s.env.rxFifo.length) := by
  unfold turn
  split
  · next h => simp [h, arrivals]
  · next batch rest h => rw [applyEvents_rxFifo, h]; rfl

/-- The bytes of the batch that a turn takes are no longer to come. -/
theorem bytesToCome_turn (s : State) : bytesToCome s = arrivals (s.schedule.headD []) ++ bytesToCome (turn s) := by
  rw [bytesToCome, bytesToCome, turn_schedule]
  cases s.schedule <;> rfl

/-- The bytes in the FIFO and those to come, in the order in which the engine can read them. -/
def byteStream (s : State) : List Byte := s.env.rxFifo ++ bytesToCome s

/-- A turn loses bytes of the stream at most, those that find the FIFO full (R212). -/
theorem byteStream_turn_sublist (s : State) : (byteStream (turn s)).Sublist (byteStream s) := by
  rw [byteStream, byteStream, turn_rxFifo, bytesToCome_turn s, List.append_assoc]
  exact ((List.take_sublist _ _).append_right _).append_left _

/-! ### What a poll in ReadData stores (R61, R65, R66) -/

/-- `u` comes after `s` in the drain loop: bytes of the stream have been appended to the buffer, in their order and at most up to the
total, and what follows them in the stream is still there to be read. -/
def storedInOrder (total : Nat) (s u : State) : Prop :=
  ∃ stored, u.eng = { s.eng with buf := s.eng.buf ++ stored, counter := s.eng.counter + stored.length } ∧
    (stored ++ byteStream u).Sublist (byteStream s) ∧ u.eng.counter ≤ total

theorem storedInOrder.refl {total : Nat} {s : State} (h : s.eng.counter ≤ total) : storedInOrder total s s :=
  ⟨[], by simp, List.Sublist.refl _, h⟩

theorem storedInOrder.turn {total : Nat} {s u : State} (h : storedInOrder total s u) : storedInOrder total s (turn u) := by
  obtain ⟨stored, heng, hsub, hle⟩ := h
  refine ⟨stored, ?_, ((byteStream_turn_sublist u).append_left stored).trans hsub, ?_⟩ <;> rw [turn_keeps_eng]
  · exact heng
  · exact hle

/-- AppendBounded as what it appends and how much that is (R66). -/
theorem append_eq_of_stored (e : Engine) (total : Nat) (bs : List Byte) : e.append total bs =
    { e with buf := e.buf ++ bs.take (total - e.counter), counter := e.counter + (bs.take (total - e.counter)).length } := by
  rw [Engine.append, Nat.min_comm, ← List.take_eq_take_min, List.length_take]

/-- A drain stores the oldest bytes of the FIFO, up to the total (R62, R66). -/
theorem storedInOrder.drained {total : Nat} {s u : State} (h : storedInOrder total s u) (n : Nat) :
    storedInOrder total s (drained total n u) := by
  obtain ⟨stored, heng, hsub, hle⟩ := h
  have hdrained : (Machine.drained total n u).eng = _ := append_eq_of_stored u.eng total (u.env.rxFifo.take n)
  have hcount : (Machine.drained total n u).eng.counter ≤ total := append_counter_le u.eng total _ hle
  have hkept := List.take_sublist (total - u.eng.counter) (u.env.rxFifo.take n)
  generalize (u.env.rxFifo.take n).take (total - u.eng.counter) = kept at hdrained hkept
  refine ⟨stored ++ kept, ?_, List.Sublist.trans ?_ hsub, hcount⟩
  · rw [hdrained, heng]
    simp only [List.append_assoc, List.length_append, Nat.add_assoc]
  · have hsplit : byteStream u = u.env.rxFifo.take n ++ byteStream (Machine.drained total n u) := by
      rw [byteStream, ← List.take_append_drop n u.env.rxFifo, List.append_assoc, List.take_append_drop]
      rfl
    rw [hsplit, List.append_assoc]
    exact (hkept.append_right _).append_left stored

/-- A completion writes `state` alone of the engine's registers (R188, R236). -/
theorem complete_eng {s t : State} (h : complete s = .next t) : t.eng = s.eng.goto .initRx := by
  have hread : ∀ u, (readSyncTime u).2.eng = u.eng := by
    intro u
    unfold readSyncTime
    split <;> rfl
  rw [complete_eq] at h
  split at h
  · rw [raiseAbort_next h, State.setResult_eng, State.setEng_eng, residualDropped_eng]
  · cases h
    rw [State.setResult_eng, State.setEng_eng, hread, residualDropped_eng]

/-- Settles O37: the turns and drains of the loop store in order, and its ends write `state` alone. -/
theorem readDataStoresArrivedBytesInOrder : Obligations.ReadDataStoresArrivedBytesInOrder := by
  intro s t total hexp hle hx
  rw [execPollReadData_eq s total hexp] at hx
  obtain ⟨u, ⟨stored, heng, hsub, hcount⟩, hend⟩ := drainLoop_ends (P := storedInOrder total s)
    (fun _ h => h.turn) (fun n _ h => h.drained n) _ (storedInOrder.refl hle) hx
  have hstate : ∃ z, t.eng = u.eng.goto z := by
    obtain hab | hno | ⟨-, hc⟩ := hend
    · exact ⟨.initRx, by rw [raiseAbort_next hab]; rfl⟩
    · exact ⟨u.eng.state, by rw [returnNoFrame_next hno]; rfl⟩
    · exact ⟨.initRx, complete_eng hc⟩
  obtain ⟨z, hz⟩ := hstate
  refine ⟨stored, z, ?_, (List.sublist_append_left _ _).trans hsub, ?_⟩ <;> rw [hz]
  · rw [heng]
    rfl
  · exact hcount

end Sys2Proof.Machine
end

section
/-! SUPPORT. What storing a classified header does to every part of the state (R69, R170, R171), on a quiet channel and with the other
agents at work. -/

namespace Sys2Proof.Machine

/-! ### Programming the length (R69, R171) -/

theorem usesFixed_iff {c : Config} {total : Nat} : usesFixed c total = true ↔ total < c.fixedLenCeiling.val :=
  decide_eq_true_iff

/-- At or above the ceiling the transceiver is left as it is (R171). -/
theorem programLength_of_ge {total : Nat} {s : State} (h : ¬ total < s.cfg.fixedLenCeiling.val) :
    programLength total s = s :=
  if_neg (mt usesFixed_iff.1 h)

/-- Below the ceiling the length mode and the threshold are written, each after a turn (R74, R171). -/
theorem programLength_of_lt {total : Nat} {s : State} (h : total < s.cfg.fixedLenCeiling.val) :
    programLength total s = cmdSetThreshold s.cfg.fifoThrRead
      ((cmdSetLengthMode (.fixed (BitVec.ofNat 8 total)) s).setEng s.eng.fixedLength) := by
  rw [programLength, if_pos (usesFixed_iff.2 h)]
  simp [cmdSetLengthMode]

theorem programLength_quiet {total : Nat} {s : State} (hs : s.schedule = []) (h : total < s.cfg.fixedLenCeiling.val) :
    programLength total s = (s.setEnv { s.env with
      chipLengthMode := .fixed (BitVec.ofNat 8 total), fifoThr := s.cfg.fifoThrRead }).setEng s.eng.fixedLength := by
  rw [programLength_of_lt h, cmdSetLengthMode, turn_quiet hs, cmdSetThreshold, turn_quiet (by exact hs)]
  rfl

/-- What the two commands leave as it was, whatever the other agents do between them. -/
theorem programLength_keeps (total : Nat) (s : State) :
    (programLength total s).env.txFifo = s.env.txFifo ∧ (programLength total s).env.rxRequested = s.env.rxRequested ∧
      (programLength total s).env.freq = s.env.freq ∧ (programLength total s).callResult = s.callResult ∧
      (programLength total s).freeCount = s.freeCount := by
  by_cases h : total < s.cfg.fixedLenCeiling.val
  · simp [programLength_of_lt h, cmdSetThreshold, cmdSetLengthMode]
  · simp [programLength_of_ge h]

/-- The two commands take nothing from the receive FIFO (R61). -/
theorem programLength_rxFifo (total : Nat) (s : State) :
    ∃ arrived, (programLength total s).env.rxFifo = s.env.rxFifo ++ arrived := by
  by_cases h : total < s.cfg.fixedLenCeiling.val
  · obtain ⟨x, hx⟩ := turn_fifo s
    obtain ⟨y, hy⟩ := turn_fifo ((cmdSetLengthMode (.fixed (BitVec.ofNat 8 total)) s).setEng s.eng.fixedLength)
    refine ⟨x ++ y, ?_⟩
    rw [programLength_of_lt h, ← List.append_assoc, ← hx]
    exact hy
  · exact ⟨[], by simp [programLength_of_ge h]⟩

/-! ### Storing the header (R170) -/

/-- The header rows that classify run the acceptance of what they classify (R166 to R168). -/
theorem exec_of_classifiesAs {i : Instr} {c : Classified} {h : List Byte} (hi : classifiesAs i c h) (s : State) :
    exec i s = acceptHeader c h s := by
  obtain ⟨l, rfl, rfl, rfl⟩ | ⟨l, rfl, rfl, rfl⟩ | ⟨a, b, c, d, l, m, rfl, hd, rfl, rfl⟩ := hi
  · rfl
  · rfl
  · simp only [exec, execHdrT, hd]
    rfl

/-- A total within the cap is stored (R170, R172). -/
theorem acceptHeader_of_le {c : Classified} {s : State} (h : List Byte) (hc : c.expected ≤ s.cfg.bufferCap) :
    acceptHeader c h s = .next ((headerAccepted c h s).setResult .noFrame) :=
  if_neg (Nat.not_lt.2 hc)

/-- The registers after a classified header of three bytes, field by field (R170, R171). -/
theorem headerAccepted_registers {c : Classified} {h : List Byte} (s : State) (hl : h.length = 3) :
    (headerAccepted c h s).eng = { s.eng with
      mode := c.mode, block := c.block, lengthField := c.lengthField, expected := some c.expected,
      buf := s.eng.buf ++ h.take (min 3 (c.expected - s.eng.counter)),
      counter := s.eng.counter + min 3 (c.expected - s.eng.counter),
      lengthMode := if c.expected < s.cfg.fixedLenCeiling.val then .fixed else s.eng.lengthMode,
      state := .readData } := by
  simp only [headerAccepted_eng, usesFixed_iff, Engine.append, hl]
  rfl

/-- The state with a classified header's tuple and bytes stored, before the chip is programmed (R170). -/
def headerStored (c : Classified) (h : List Byte) (s : State) : State :=
  appendBounded c.expected h (s.setEng (s.eng.classified c))

theorem headerAccepted_eq (c : Classified) (h : List Byte) (s : State) : headerAccepted c h s =
    (programLength c.expected (headerStored c h s)).setEng
      ((programLength c.expected (headerStored c h s)).eng.goto .readData) := rfl

theorem headerAccepted_of_ge {c : Classified} (h : List Byte) {s : State} (hf : ¬ c.expected < s.cfg.fixedLenCeiling.val) :
    headerAccepted c h s = (headerStored c h s).setEng ((headerStored c h s).eng.goto .readData) := by
  rw [headerAccepted_eq, programLength_of_ge (s := headerStored c h s) hf]

/-- On a quiet channel the transceiver's settings are all that changes outside the registers (R170, R171). -/
theorem headerAccepted_quiet {c : Classified} (h : List Byte) {s : State} (hs : s.schedule = []) :
    headerAccepted c h s = (s.setEng (headerAccepted c h s).eng).setEnv
      (if c.expected < s.cfg.fixedLenCeiling.val then
        { s.env with chipLengthMode := .fixed (BitVec.ofNat 8 c.expected), fifoThr := s.cfg.fifoThrRead }
      else s.env) := by
  split
  · next hf =>
    rw [headerAccepted_eq, programLength_quiet (s := headerStored c h s) hs hf]
    rfl
  · next hf =>
    rw [headerAccepted_of_ge h hf]
    rfl

/-- Below the ceiling the chip holds the total as one byte, and the threshold for reading (R69, R171). -/
theorem headerAccepted_settings_of_lt (c : Classified) (h : List Byte) (s : State)
    (hf : c.expected < s.cfg.fixedLenCeiling.val) :
    (∃ n : Byte, n.toNat = c.expected ∧ (headerAccepted c h s).env.chipLengthMode = .fixed n) ∧
      (headerAccepted c h s).env.fifoThr = s.cfg.fifoThrRead := by
  have hceil := s.cfg.fixedLenCeiling.isLt
  have hbyte : (BitVec.ofNat 8 c.expected).toNat = c.expected := by
    rw [BitVec.toNat_ofNat, Nat.mod_eq_of_lt (by omega)]
  rw [headerAccepted_chipLengthMode, headerAccepted_fifoThr, if_pos (usesFixed_iff.2 hf), if_pos (usesFixed_iff.2 hf)]
  exact ⟨⟨_, hbyte, rfl⟩, rfl⟩

/-- Settles O17: the registers and settings of `headerAccepted`, whose port operations are the two that program the chip. -/
theorem classifiedHeadersAreStored : Obligations.ClassifiedHeadersAreStored := by
  intro i k h s hi hcap
  obtain ⟨-, -, -, hlen⟩ := classifiesAs_bounds hi
  have o := headerAccepted_onward k h s
  have hx := (exec_of_classifiesAs hi s).trans (acceptHeader_of_le h hcap)
  have hge : ¬ k.expected < s.cfg.fixedLenCeiling.val → (headerAccepted k h s).env = s.env ∧
      (headerAccepted k h s).plat = s.plat ∧ (headerAccepted k h s).reports = s.reports := by
    intro hf
    rw [headerAccepted_of_ge h hf]
    exact ⟨rfl, rfl, rfl⟩
  have hfifo := programLength_rxFifo k.expected (headerStored k h s)
  obtain ⟨htx, hrx, hfreq, hcall, hfree⟩ := programLength_keeps k.expected (headerStored k h s)
  exact ⟨_, hx, headerAccepted_registers s hlen, rfl, headerAccepted_settings_of_lt k h s, hge, hfifo, htx, hrx, hfreq,
    o.cfg, hcall, o.request, hfree⟩

/-- Settles O18. -/
theorem classifiedHeadersWriteNothingElse : Obligations.ClassifiedHeadersWriteNothingElse := by
  intro i k h s hi hcap hs
  obtain ⟨-, -, -, hlen⟩ := classifiesAs_bounds hi
  rw [exec_of_classifiesAs hi, acceptHeader_of_le h hcap, headerAccepted_quiet h hs, headerAccepted_registers s hlen]
  rfl

/-- The header read takes the oldest three bytes and goes on with them as the window (R163). -/
theorem readHeader_quiet {s : State} {h0 h1 h2 : Byte} {rest : List Byte} (hs : s.schedule = [])
    (hfifo : s.env.rxFifo = h0 :: h1 :: h2 :: rest) :
    readHeader s = runHeader h0 h1 h2 (s.setEnv { s.env with rxFifo := rest }) := by
  rw [readHeader, rdFifo_quiet hs (by rw [hfifo]; exact Nat.le_add_left 3 _), hfifo]
  rfl

/-- A header that is ready on a quiet channel is stored, from where its window has left the FIFO (R160, R170). -/
theorem execPollWaitForData_quiet {s : State} {t0 : Nat} {h0 h1 h2 : Byte} {rest : List Byte} {k : Classified}
    (hs : s.schedule = []) (hsync : s.eng.syncTime = some t0) (htime : s.env.now - t0 ≤ s.cfg.syncTimeoutMs)
    (hov : s.env.overflowFlag = false) (hthr : inThreshold s = true) (hfifo : s.env.rxFifo = h0 :: h1 :: h2 :: rest)
    (hk : classify h0 h1 h2 = some k) :
    exec .pollWaitForData s = acceptHeader k [h0, h1, h2] (s.setEnv { s.env with rxFifo := rest }) := by
  rw [execPollWaitForData_eq s t0 hsync]
  simp only [turn_quiet hs]
  rw [if_neg (Nat.not_lt.2 htime), if_neg (by simp [hov]), if_pos hthr, readHeader_quiet hs hfifo]
  simp only [runHeader, hk]

/-- Settles O29: the tests pass, the window is read, and its header is stored. -/
theorem waitForDataCollectsTheHeader : Obligations.WaitForDataCollectsTheHeader := by
  intro s t0 h0 h1 h2 rest k hs hsync htime hov hthr hfifo hk hcap
  rw [execPollWaitForData_quiet hs hsync htime hov hthr hfifo hk, acceptHeader_of_le _ (by exact hcap),
    headerAccepted_quiet _ (by exact hs), headerAccepted_registers _ rfl]
  rfl

end Sys2Proof.Machine
end

section
/-! SUPPORT. The InitRx step reads no register of the engine (R68, R143, R237): its port operations commute with a write of them. -/

namespace Sys2Proof.Machine

theorem cmdFlushRx_setEng (s : State) (e : Engine) : cmdFlushRx (s.setEng e) = (cmdFlushRx s).setEng e := by
  rw [cmdFlushRx, turn_setEng]
  rfl

theorem cmdFlushTx_setEng (s : State) (e : Engine) : cmdFlushTx (s.setEng e) = (cmdFlushTx s).setEng e := by
  rw [cmdFlushTx, turn_setEng]
  rfl

theorem cmdSetThreshold_setEng (v : Nat) (s : State) (e : Engine) :
    cmdSetThreshold v (s.setEng e) = (cmdSetThreshold v s).setEng e := by
  rw [cmdSetThreshold, turn_setEng]
  rfl

theorem cmdSetLengthMode_setEng (m : ChipLengthMode) (s : State) (e : Engine) :
    cmdSetLengthMode m (s.setEng e) = (cmdSetLengthMode m s).setEng e := by
  rw [cmdSetLengthMode, turn_setEng]
  rfl

theorem cmdEnterRx_setEng (s : State) (e : Engine) : cmdEnterRx (s.setEng e) = (cmdEnterRx s).setEng e := by
  rw [cmdEnterRx, turn_setEng]
  rfl

theorem confirmRx_setEng (n : Nat) (s : State) (e : Engine) : confirmRx n (s.setEng e) = (confirmRx n s).setEng e := by
  induction n generalizing s with
  | zero => rfl
  | succ n ih =>
    simp only [confirmRx, turn_setEng, inChipState, State.setEng_env, ih]
    split <;> rfl

/-- The registers the recovery starts from are not read: it sets every one of them (R144, R237). -/
theorem recover_setEng (s : State) (e : Engine) : recover (s.setEng e) = recover s := by
  simp only [recover, cmdFlushRx_setEng, cmdFlushTx_setEng, cmdSetThreshold_setEng, cmdSetLengthMode_setEng,
    cmdEnterRx_setEng, confirmRx_setEng, State.setEng_cfg]
  rfl

/-- Settles O24. -/
theorem initRxIgnoresStaleRegisters : Obligations.InitRxIgnoresStaleRegisters :=
  fun s e => congrArg returnNoFrame (recover_setEng s e)

end Sys2Proof.Machine
end

section
/-! SUPPORT. Which operations always answer a next state (R63, R75, R187, R216), and how a step that polls comes about. -/

namespace Sys2Proof.Machine

/-! ### ReadData (R75, R187) -/

theorem complete_answers (s : State) : ∃ t, complete s = .next t := by
  rw [complete_eq]
  split <;> exact ⟨_, rfl⟩

/-- The reads of the drain loop never underflow (R75). -/
theorem drainLoop_answers (total fuel : Nat) (s : State) : ∃ t, drainLoop total fuel s = .next t := by
  induction fuel generalizing s with
  | zero => exact ⟨_, rfl⟩
  | succ fuel ih =>
    rw [drainLoop_succ]
    dsimp only
    split_ifs
    · exact ⟨_, rfl⟩
    · exact complete_answers _
    · exact ⟨_, rfl⟩
    · exact complete_answers _
    · exact ih _

/-- Settles O35. -/
theorem readDataAlwaysReturns : Obligations.ReadDataAlwaysReturns := fun _ => drainLoop_answers _ _ _

/-! ### The header (R163, R165 to R172) -/

theorem acceptHeader_answers (c : Classified) (h : List Byte) (s : State) : ∃ t, acceptHeader c h s = .next t := by
  unfold acceptHeader
  split <;> exact ⟨_, rfl⟩

theorem runHeader_answers (h0 h1 h2 : Byte) (s : State) : ∃ t, runHeader h0 h1 h2 s = .next t := by
  unfold runHeader
  split
  · exact acceptHeader_answers _ _ _
  · exact ⟨_, rfl⟩

/-- The header read answers with at least a window in the FIFO (R63, R163). -/
theorem readHeader_answers {s : State} (h : Params.headerWindow ≤ s.env.rxFifo.length) : ∃ t, readHeader s = .next t := by
  have hread := rdFifo_of_le h
  have hlen := rdFifo_length hread
  obtain ⟨h0, h1, h2, hwindow⟩ := List.length_eq_three.1 hlen
  rw [readHeader, hread, hwindow]
  exact runHeader_answers _ _ _ _

/-! ### WaitForData and WaitForSync under WB1 (R216, R217) -/

/-- A chip that keeps WB1 and whose threshold asks for a whole header window. -/
structure WindowSignalled (s : State) : Prop where
  wb1 : WB1 s
  threshold : Params.headerWindow ≤ s.env.fifoThr

theorem WindowSignalled.of_agents {s t : State} (h : WindowSignalled s) (a : AgentsOnly s t) : WindowSignalled t :=
  ⟨a.tracks.trans h.wb1, a.fifoThr ▸ h.threshold⟩

theorem WindowSignalled.turn {s : State} (h : WindowSignalled s) : WindowSignalled (turn s) :=
  h.of_agents (turn_agentsOnly s)

/-- Where the threshold line is high there is a header window in the FIFO (R216). -/
theorem WindowSignalled.window {s : State} (h : WindowSignalled s) (hthr : inThreshold s = true) :
    Params.headerWindow ≤ s.env.rxFifo.length := by
  have htracks : s.env.tracksThreshold = true := h.wb1
  rw [inThreshold, if_pos htracks, decide_eq_true_eq] at hthr
  exact h.threshold.trans hthr

/-- A read of `syncTime` leaves the transceiver as it is (U17). -/
theorem readSyncTime_env (s : State) : (readSyncTime s).2.env = s.env := by
  unfold readSyncTime
  split <;> rfl

theorem waitForDataStep_answers {s : State} (h : WindowSignalled s) : ∃ t, waitForDataStep s = .next t := by
  have hread : WindowSignalled (readSyncTime s).2 := by
    refine ⟨?_, ?_⟩
    · rw [WB1, readSyncTime_env]
      exact h.wb1
    · rw [readSyncTime_env]
      exact h.threshold
  unfold waitForDataStep
  dsimp only
  split_ifs with htime hov hthr
  · exact ⟨_, rfl⟩
  · exact ⟨_, rfl⟩
  · exact readHeader_answers (hread.turn.turn.turn.window hthr)
  · exact ⟨_, rfl⟩

theorem execPollWaitForSync_answers {s : State} (h : WindowSignalled s) : ∃ t, execPollWaitForSync s = .next t := by
  have hseen := fun e => WindowSignalled.mk (s := (turn (turn (turn s))).setEng e) h.turn.turn.turn.wb1
    h.turn.turn.turn.threshold
  unfold execPollWaitForSync
  dsimp only
  split_ifs
  · exact ⟨_, rfl⟩
  · exact waitForDataStep_answers (hseen _)
  · exact ⟨_, rfl⟩
  · exact ⟨_, rfl⟩

theorem execPoll_answers {s : State} (h : WindowSignalled s) (a : AcqState) : ∃ t, exec (pollInstr a) s = .next t := by
  cases a with
  | initRx => exact ⟨_, rfl⟩
  | waitForSync => exact execPollWaitForSync_answers h
  | waitForData => exact waitForDataStep_answers h
  | readData => exact readDataAlwaysReturns s

/-! ### A step that polls (R140, R250) -/

/-- With nothing presented a step waits, runs the poll that the state register selects, and accepts its result (R140, R250). -/
theorem step_of_poll {s : State} (hreq : s.request = none) (hset : s.plat.setupAborted = false) :
    step s = finishStep (pollInstr s.eng.state) (exec (pollInstr s.eng.state) (awaitPoll (s.setRequest none))) := by
  have hfetch : fetchWord s = .bits 2 s.eng.state.code.toNat := by simp only [fetchWord, hreq]
  simp only [step, hfetch, decode_stateCode, hset, beginStep, pollInstr_isPoll, if_true]
  simp

/-- Settles O30: a threshold line that is high announces a whole window, so no header read falls short. -/
theorem headerReadNeverUnderflowsUnderWB1 : Obligations.HeaderReadNeverUnderflowsUnderWB1 := by
  intro s hwb1 hthr
  have h : WindowSignalled s := ⟨hwb1, hthr⟩
  refine ⟨waitForDataStep_answers h, execPollWaitForSync_answers h, fun hreq hset => ?_⟩
  have hwait : WindowSignalled (awaitPoll (s.setRequest none)) :=
    WindowSignalled.of_agents (s := s.setRequest none) ⟨hwb1, hthr⟩ (awaitPoll_agentsOnly _).1
  obtain ⟨t, ht⟩ := execPoll_answers hwait s.eng.state
  rw [goodStep, step_of_poll hreq hset, ht]
  exact ⟨_, rfl⟩

end Sys2Proof.Machine
end

section
/-! SUPPORT. What no operation writes (R79, R215, R273, R274): the configuration, the frequency registers, whether setup aborted; and the
clock only moves forward. -/

namespace Sys2Proof.Machine

/-- `u` comes after `s` with what construction and setup have fixed still as it was, and at no earlier time. -/
structure SetupKept (s u : State) : Prop where
  clock : s.env.now ≤ u.env.now
  cfg : u.cfg = s.cfg
  freq : u.env.freq = s.env.freq
  aborted : u.plat.setupAborted = s.plat.setupAborted

theorem SetupKept.refl (s : State) : SetupKept s s := ⟨le_rfl, rfl, rfl, rfl⟩

/-! ### The writes an operation is made of -/

section
variable {s u v : State}

/-- Steps of the other agents (R74, R215). -/
theorem SetupKept.of_agents (h : SetupKept s u) (a : AgentsOnly u v) : SetupKept s v :=
  ⟨h.clock.trans a.clock, a.cfg.trans h.cfg, a.freq.trans h.freq, a.aborted.trans h.aborted⟩

/-- Writes of registers, results and diagnostics. -/
theorem SetupKept.of_same (h : SetupKept s u) (henv : v.env = u.env) (hplat : v.plat = u.plat) (hcfg : v.cfg = u.cfg) :
    SetupKept s v :=
  ⟨by rw [henv]; exact h.clock, hcfg.trans h.cfg, by rw [henv]; exact h.freq, by rw [hplat]; exact h.aborted⟩

/-- Writes of the transceiver. -/
theorem SetupKept.setEnv (h : SetupKept s u) {e : Env} (hnow : e.now = u.env.now) (hfreq : e.freq = u.env.freq) :
    SetupKept s (u.setEnv e) :=
  ⟨by rw [State.setEnv_env, hnow]; exact h.clock, h.cfg, hfreq.trans h.freq, h.aborted⟩

/-- Bytes taken from the receive FIFO (R62). -/
theorem SetupKept.dropFifo (h : SetupKept s u) (n : Nat) :
    SetupKept s (u.setEnv { u.env with rxFifo := u.env.rxFifo.drop n }) := h.setEnv rfl rfl

theorem SetupKept.setEng (h : SetupKept s u) (e : Engine) : SetupKept s (u.setEng e) := h.of_same rfl rfl rfl

theorem SetupKept.turn (h : SetupKept s u) : SetupKept s (turn u) := h.of_agents (turn_agentsOnly u)

/-! ### The shared operations (R202 to R208, R237) -/

theorem SetupKept.cmdFlushRx (h : SetupKept s u) : SetupKept s (cmdFlushRx u) := h.turn.setEnv rfl rfl

theorem SetupKept.cmdFlushTx (h : SetupKept s u) : SetupKept s (cmdFlushTx u) := h.turn.setEnv rfl rfl

theorem SetupKept.cmdSetThreshold (h : SetupKept s u) (n : Nat) : SetupKept s (cmdSetThreshold n u) :=
  h.turn.setEnv rfl rfl

theorem SetupKept.cmdSetLengthMode (h : SetupKept s u) (m : ChipLengthMode) : SetupKept s (cmdSetLengthMode m u) :=
  h.turn.setEnv rfl rfl

theorem SetupKept.cmdEnterRx (h : SetupKept s u) : SetupKept s (cmdEnterRx u) := h.turn.setEnv rfl rfl

theorem SetupKept.recover (h : SetupKept s u) : SetupKept s (recover u) :=
  ((((h.cmdFlushRx.cmdFlushTx.cmdSetThreshold _).cmdSetLengthMode _).cmdEnterRx).of_agents
    (confirmRx_agentsOnly _ _)).setEng _

theorem SetupKept.rdFifo {n : Nat} {bytes : List Byte} (h : SetupKept s u) (hr : rdFifo n u = some (bytes, v)) :
    SetupKept s v := by
  obtain ⟨-, -, rfl⟩ := rdFifo_spec hr
  exact h.turn.dropFifo n

theorem SetupKept.drained (h : SetupKept s u) (total n : Nat) : SetupKept s (drained total n u) :=
  (h.dropFifo n).setEng _

theorem SetupKept.residualDropped (h : SetupKept s u) : SetupKept s (residualDropped u) := by
  unfold Machine.residualDropped
  split
  · exact (h.turn.turn.dropFifo _).turn
  · exact h.turn.turn

theorem SetupKept.programLength (h : SetupKept s u) (total : Nat) : SetupKept s (programLength total u) := by
  by_cases hf : total < u.cfg.fixedLenCeiling.val
  · rw [programLength_of_lt hf]
    exact ((h.cmdSetLengthMode _).setEng _).cmdSetThreshold _
  · rw [programLength_of_ge hf]
    exact h

theorem SetupKept.readSyncTime (h : SetupKept s u) : SetupKept s (readSyncTime u).2 := by
  unfold Machine.readSyncTime
  split <;> exact h.of_same rfl rfl rfl

theorem SetupKept.readExpected (h : SetupKept s u) : SetupKept s (readExpected u).2 := by
  unfold Machine.readExpected
  split <;> exact h.of_same rfl rfl rfl

/-! ### Ends of a poll -/

theorem SetupKept.returnNoFrame (h : SetupKept s u) (hn : returnNoFrame u = .next v) : SetupKept s v := by
  rw [returnNoFrame_next hn]
  exact h.of_same rfl rfl rfl

theorem SetupKept.raiseAbort {k : AbortKind} (h : SetupKept s u) (hn : raiseAbort k u = .next v) : SetupKept s v := by
  rw [raiseAbort_next hn]
  exact h.of_same rfl rfl rfl

theorem SetupKept.complete (h : SetupKept s u) (hn : complete u = .next v) : SetupKept s v := by
  rw [complete_eq] at hn
  split at hn
  · exact h.residualDropped.raiseAbort hn
  · cases hn
    exact h.residualDropped.readSyncTime.of_same rfl rfl rfl

/-! ### Every operation and every step -/

theorem SetupKept.execHeader {i : Instr} (h : SetupKept s u) (hh : i.isHeader = true) (hx : exec i u = .next v) :
    SetupKept s v := by
  obtain ⟨c, hd, -, heq⟩ | heq := exec_header hh
  · rw [heq] at hx
    obtain hab | rfl := acceptHeader_next hx
    · exact h.raiseAbort hab
    · have hstored : SetupKept s (headerStored c hd u) := (h.setEng _).setEng _
      exact (hstored.programLength c.expected).of_same rfl rfl rfl
  · rw [heq] at hx
    have hreported : SetupKept s (emit (.kind .unclassifiableHeader) u) := h.of_same rfl rfl rfl
    exact hreported.returnNoFrame hx

theorem SetupKept.readHeader (h : SetupKept s u) (hn : readHeader u = .next v) : SetupKept s v := by
  unfold Machine.readHeader at hn
  split at hn
  · next h0 h1 h2 w hr =>
    rw [runHeader_eq_exec] at hn
    exact (h.rdFifo hr).execHeader (headerInstr_isHeader h0 h1 h2) hn
  · cases hn

theorem SetupKept.waitForDataStep (h : SetupKept s u) (hn : waitForDataStep u = .next v) : SetupKept s v := by
  have hread := h.readSyncTime
  simp only [Machine.waitForDataStep] at hn
  split_ifs at hn
  · exact hread.turn.raiseAbort hn
  · exact hread.turn.turn.raiseAbort hn
  · exact hread.turn.turn.turn.readHeader hn
  · exact hread.turn.turn.turn.returnNoFrame hn

theorem SetupKept.execPollWaitForSync (h : SetupKept s u) (hn : execPollWaitForSync u = .next v) : SetupKept s v := by
  have h3 := h.turn.turn.turn
  simp only [Machine.execPollWaitForSync] at hn
  split_ifs at hn
  · exact h.turn.raiseAbort hn
  · exact (h3.setEng _).waitForDataStep hn
  · exact h3.cmdFlushRx.returnNoFrame hn
  · exact h3.returnNoFrame hn

theorem SetupKept.readDataStep (h : SetupKept s u) (hn : readDataStep u = .next v) : SetupKept s v := by
  obtain ⟨w, hw, hab | hno | ⟨-, hc⟩⟩ := drainLoop_ends (P := SetupKept s) (fun _ h => h.turn)
    (fun n _ h => h.drained _ n) _ h.readExpected hn
  · exact hw.raiseAbort hab
  · exact hw.returnNoFrame hno
  · exact hw.complete hc

theorem SetupKept.execPoll {i : Instr} (h : SetupKept s u) (hp : i.isPoll = true) (hx : exec i u = .next v) :
    SetupKept s v := by
  cases i with
  | pollInitRx => exact h.recover.returnNoFrame hx
  | pollWaitForSync => exact h.execPollWaitForSync hx
  | pollWaitForData => exact h.waitForDataStep hx
  | pollReadData => exact h.readDataStep hx
  | _ => cases hp

theorem SetupKept.exec {i : Instr} (h : SetupKept s u) (hx : exec i u = .next v) : SetupKept s v := by
  cases hp : i.isPoll with
  | true => exact h.execPoll hp hx
  | false =>
    cases hh : i.isHeader with
    | true => exact h.execHeader hh hx
    | false =>
      obtain ⟨r, hr⟩ := exec_eq_answer hp hh
      rw [hr] at hx
      cases hx
      exact h.of_same rfl rfl rfl

/-- Taking what is presented, and the host's wait before a poll (R250, R251). -/
theorem SetupKept.beginStep (h : SetupKept s u) (i : Instr) : SetupKept s (beginStep i u) := by
  have htaken : SetupKept s (u.setRequest none) := h.of_same rfl rfl rfl
  unfold Machine.beginStep
  split
  · exact htaken.of_agents (awaitPoll_agentsOnly _).1
  · exact htaken

/-- The host's push writes the queue and the diagnostics alone (R255). -/
theorem SetupKept.acceptResult (h : SetupKept s u) : SetupKept s (acceptResult u) := by
  unfold Machine.acceptResult pushFrame
  split
  · exact h
  · split
    · exact ⟨h.clock, h.cfg, h.freq, h.aborted⟩
    · exact h.of_same rfl rfl rfl

end

/-- Settles O57: the wait, the operation and the host's acceptance all keep it. -/
theorem stepsKeepClockAndConfiguration : Obligations.StepsKeepClockAndConfiguration := by
  intro s t hstep
  obtain ⟨i, u, -, -, hx, rfl⟩ := step_next hstep
  have hu : SetupKept s u := ((SetupKept.refl s).beginStep i).exec hx
  have ht : SetupKept s (if i.isPoll then acceptResult u else u) := by
    split
    · exact hu.acceptResult
    · exact hu
  exact ⟨ht.clock, ht.cfg, ht.freq, ht.aborted⟩

end Sys2Proof.Machine
end

section
/-! SUPPORT. The decoder and the encoder, row family by row family (R90 to R101, R107): the symbol rows, the header windows, the polls and
the calls each encode to what they decode from, and nothing else decodes. -/

namespace Sys2Proof.Machine

/-! ### The symbol rows (R91 to R93) -/

/-- Every value finds its codeword, and the codeword its value (R91). -/
theorem valueOf_codewordOf {cb : Codebook} (hlen : cb.length = 16) (hn : cb.Nodup) (v : Nibble) :
    valueOf cb (codewordOf cb v) = some v := by
  have hv : v.toNat < cb.length := hlen ▸ v.isLt
  rw [codewordOf, List.getD_eq_getElem _ _ hv, valueOf, lookupFrom_getElem cb hn 0 _ hv, Nat.zero_add, BitVec.ofNat_toNat,
    BitVec.setWidth_eq]

theorem codebook_contract : codebookContract Params.codebook := by decide

theorem valueOf_codebook (v : Nibble) : valueOf Params.codebook (codewordOf Params.codebook v) = some v := by
  obtain ⟨hlen, hn, -⟩ := codebook_contract
  exact valueOf_codewordOf hlen hn v

theorem decode_symbolWord (x : Sym) : decode (.bits 6 x.toNat) = .ok (symbolInstr x) := by
  simp [decode, decodeBits, x.isLt]

theorem encode_symbolInstr : ∀ x : Sym, encode (symbolInstr x) = .bits 6 x.toNat := by decide

theorem symbolInstr_wf : ∀ x : Sym, (symbolInstr x).wf = true := by decide

/-- What a symbol run alone answers: its value, or Fail (R91, R93; log 5). -/
def symbolAnswer (x : Sym) : CallResult :=
  match valueOf Params.codebook x with
  | some v => .nibble v
  | none => .fail

/-- The operation presented by a symbol answers what the codebook says of that symbol. -/
theorem exec_of_encode_symbol {i : Instr} {v : Nat} (h : encode i = .bits 6 v) (s : State) :
    exec i s = answer (symbolAnswer (BitVec.ofNat 6 v)) s := by
  cases i with
  | hdrCA | hdrCB | hdrCInvalid | hdrT | hdrUnclassifiable => cases h
  | pollInitRx | pollWaitForSync | pollWaitForData | pollReadData => cases h
  | decode | encodedSize | modeTPacketSize | encode => cases h
  | _ => cases h; rfl

theorem exec_symbolInstr (x : Sym) (s : State) : exec (symbolInstr x) s = answer (symbolAnswer x) s := by
  simpa using exec_of_encode_symbol (encode_symbolInstr x) s

/-! ### The header windows (R90, R95, R97) -/

/-- A window that does not begin with the Mode C preamble holds four codewords or does not (R97). -/
theorem headerInstr_of_ne_preamble {h0 : Byte} (h1 h2 : Byte) (h : h0 ≠ Params.preambleC) :
    headerInstr h0 h1 h2 =
      if lineDecode [h0, h1, h2] ≠ none then .hdrT (symAt0 h0) (symAt6 h0 h1) (symAt4 h1 h2) (symAt2 h2)
      else .hdrUnclassifiable (symAt0 h0) (symAt6 h0 h1) (symAt4 h1 h2) (symAt2 h2) := by
  simp only [headerInstr, if_neg h, ne_eq, lineDecode_window, not_not]

theorem headerInstr_invalid {h1 : Byte} (h2 : Byte) (hA : h1 ≠ Params.markBlockA) (hB : h1 ≠ Params.markBlockB) :
    headerInstr Params.preambleC h1 h2 = .hdrCInvalid h1 h2 := by
  rw [headerInstr, if_pos rfl, if_neg hA, if_neg hB]

/-- The window packed of four symbols gives the same four symbols back (R95, R97). -/
theorem headerInstr_group {a b : Sym} (c d : Sym) (h : packByte0 a b ≠ Params.preambleC) :
    headerInstr (packByte0 a b) (packByte1 b c) (packByte2 c d) =
      if isCodeword a && isCodeword b && isCodeword c && isCodeword d then .hdrT a b c d else .hdrUnclassifiable a b c d := by
  simp only [headerInstr, if_neg h, symAt0_pack, symAt6_pack, symAt4_pack, symAt2_pack]

theorem groupWord_syms (h0 h1 h2 : Byte) :
    groupWord (symAt0 h0) (symAt6 h0 h1) (symAt4 h1 h2) (symAt2 h2) = headerWord h0 h1 h2 := by
  rw [groupWord, packByte0_syms, packByte1_syms, packByte2_syms]

theorem encode_headerInstr (h0 h1 h2 : Byte) : encode (headerInstr h0 h1 h2) = headerWord h0 h1 h2 := by
  simp only [headerInstr]
  split_ifs with hC hA hB
  · rw [hC, hA]; rfl
  · rw [hC, hB]; rfl
  · rw [hC]; rfl
  · exact groupWord_syms h0 h1 h2
  · exact groupWord_syms h0 h1 h2

theorem headerInstr_wf (h0 h1 h2 : Byte) : (headerInstr h0 h1 h2).wf = true := by
  simp only [headerInstr]
  split_ifs with hC hA hB hT
  · rfl
  · rfl
  · simp only [Instr.wf, bne_iff_ne.2 hA, bne_iff_ne.2 hB, Bool.and_self]
  · simp only [Instr.wf, packByte0_syms, bne_iff_ne.2 hC, hT, Bool.and_self]
  · simp only [Instr.wf, packByte0_syms, bne_iff_ne.2 hC, Bool.eq_false_iff.2 hT, Bool.not_false, Bool.and_self]

/-- The three bytes a 24-bit number is read as make that number (R90). -/
theorem header24_headerByte {v : Nat} (hv : v < 2 ^ 24) :
    (header24 (headerByte v 0) (headerByte v 1) (headerByte v 2)).toNat = v := by
  rw [header24_toNat]
  simp only [headerByte, BitVec.toNat_ofNat, Nat.shiftRight_eq_div_pow]
  omega

/-- The bit stream of a window is that of its four symbols: no spare bits (R72, R97). -/
theorem bitstream_window (h0 h1 h2 : Byte) :
    bitstream [h0, h1, h2] = [symAt0 h0, symAt6 h0 h1, symAt4 h1 h2, symAt2 h2].flatMap symBits :=
  ((symBits_isPrefix_bitstream [h0, h1, h2]).eq_of_length rfl).symm

/-! ### The polls and the calls (R101, R107) -/

theorem encode_pollInstr (a : AcqState) : encode (pollInstr a) = .bits 2 a.code.toNat := by cases a <;> rfl

theorem pollInstr_wf (a : AcqState) : (pollInstr a).wf = true := by cases a <;> rfl

/-- Every 2-bit value is the code of a state (R23, R104). -/
theorem code_stateOfCode : ∀ v : BitVec 2, (stateOfCode v).code = v := by decide

theorem decodeCall_ok {n : CallName} {o : Operand} {i : Instr} (h : decodeCall n o = .ok i) :
    encode i = .call n o ∧ i.wf = true := by
  unfold decodeCall at h
  split at h <;> cases h <;> exact ⟨rfl, rfl⟩

/-! ### Everything that decodes -/

/-- A pattern of bits that decodes is a symbol, a header window or a state value (R90). -/
theorem decodeBits_ok {width value : Nat} {i : Instr} (h : decodeBits width value = .ok i) :
    (∃ x : Sym, Encoded.bits width value = .bits 6 x.toNat ∧ i = symbolInstr x) ∨
    (∃ h0 h1 h2, Encoded.bits width value = headerWord h0 h1 h2 ∧ i = headerInstr h0 h1 h2) ∨
    ∃ a : AcqState, Encoded.bits width value = .bits 2 a.code.toNat ∧ i = pollInstr a := by
  unfold decodeBits at h
  split_ifs at h with h6 hv h24 hv h2 hv <;> cases h
  · exact .inl ⟨BitVec.ofNat 6 value, by rw [h6, BitVec.toNat_ofNat, Nat.mod_eq_of_lt hv], rfl⟩
  · exact .inr (.inl ⟨_, _, _, by rw [h24, headerWord, header24_headerByte hv], rfl⟩)
  · exact .inr (.inr ⟨_, by rw [h2, code_stateOfCode, BitVec.toNat_ofNat, Nat.mod_eq_of_lt hv], rfl⟩)

/-- Settles O1: the header rows by the bytes or symbols that tell them apart, every other row by its own word. -/
theorem encodedOperationsDecode : Obligations.EncodedOperationsDecode := by
  intro i hwf
  cases i with
  | hdrCA l => exact decode_headerWord Params.preambleC Params.markBlockA l
  | hdrCB l => exact decode_headerWord Params.preambleC Params.markBlockB l
  | hdrCInvalid h1 h2 =>
    simp only [Instr.wf, Bool.and_eq_true, bne_iff_ne] at hwf
    obtain ⟨hA, hB⟩ := hwf
    rw [encode, decode_headerWord, headerInstr_invalid h2 hA hB]
  | hdrT a b c d =>
    rw [Instr.wf, Bool.and_eq_true, bne_iff_ne] at hwf
    obtain ⟨hC, hcodes⟩ := hwf
    rw [encode, groupWord, decode_headerWord, headerInstr_group c d hC, if_pos hcodes]
  | hdrUnclassifiable a b c d =>
    rw [Instr.wf, Bool.and_eq_true, bne_iff_ne, Bool.not_eq_true'] at hwf
    obtain ⟨hC, hcodes⟩ := hwf
    rw [encode, groupWord, decode_headerWord, headerInstr_group c d hC, if_neg (Bool.eq_false_iff.1 hcodes)]
  | _ => rfl

/-- Settles O2: each family of rows encodes back to the form it decodes from. -/
theorem decodedFormsEncodeBack : Obligations.DecodedFormsEncodeBack := by
  intro w i h
  cases w with
  | call n o => exact decodeCall_ok h
  | bits width value =>
    obtain ⟨x, hw, rfl⟩ | ⟨h0, h1, h2, hw, rfl⟩ | ⟨a, hw, rfl⟩ := decodeBits_ok h
    · exact ⟨(encode_symbolInstr x).trans hw.symm, symbolInstr_wf x⟩
    · exact ⟨(encode_headerInstr h0 h1 h2).trans hw.symm, headerInstr_wf h0 h1 h2⟩
    · exact ⟨(encode_pollInstr a).trans hw.symm, pollInstr_wf a⟩

/-- Settles O4: the row is `headerInstr` of the window, and its symbols are the four of the window's bit stream. -/
theorem headerPatternsMatchInOrder : Obligations.HeaderPatternsMatchInOrder := by
  intro h0 h1 h2
  refine ⟨headerInstr h0 h1 h2, decode_headerWord h0 h1 h2, ?_, ?_, ?_, ?_, ?_⟩
  · rintro rfl rfl
    rfl
  · rintro rfl rfl
    rfl
  · rintro rfl hA hB
    exact headerInstr_invalid h2 hA hB
  · intro hC hd
    exact ⟨_, _, _, _, (headerInstr_of_ne_preamble h1 h2 hC).trans (if_pos hd), bitstream_window h0 h1 h2⟩
  · intro hC hd
    exact ⟨_, _, _, _, (headerInstr_of_ne_preamble h1 h2 hC).trans (if_neg (not_not.2 hd)), bitstream_window h0 h1 h2⟩

/-- Settles O3: each symbol, window and state value is decoded by the rule of its format. -/
theorem specWordsDecode : Obligations.SpecWordsDecode :=
  ⟨decode_symbolWord 0x16#6, decode_symbolWord 0x0D#6, decode_symbolWord 0x29#6, decode_symbolWord 0x07#6,
    decode_symbolWord 0x3F#6, decode_headerWord 0x54#8 0xCD#8 0x05#8, decode_headerWord 0x54#8 0x3D#8 0x0A#8,
    decode_headerWord 0x54#8 0xAA#8 0x05#8, decode_headerWord 0x58#8 0xD5#8 0x8D#8, decode_headerWord 0x58#8 0xD5#8 0x8F#8,
    decode_stateCode .initRx, decode_stateCode .waitForSync, decode_stateCode .waitForData, decode_stateCode .readData⟩

/-- Settles O5: sixteen words without repeats invert. -/
theorem codebookIsTheSpecTable : Obligations.CodebookIsTheSpecTable :=
  ⟨rfl, codebook_contract, valueOf_codebook⟩

/-- Settles O6, by counting the 64 symbols. -/
theorem fortyEightSymbolsAreNoCodewords : Obligations.FortyEightSymbolsAreNoCodewords := by
  refine ⟨?_, ?_, ?_⟩ <;> decide

/-- Settles O14: each of the 16 rows is that of its value's codeword. -/
theorem codewordOperationsAnswerTheirValue : Obligations.CodewordOperationsAnswerTheirValue := by
  intro p hp s
  have hcode : p.1 = symbolInstr (codewordOf Params.codebook p.2) := by
    revert p
    decide
  rw [hcode, exec_symbolInstr, symbolAnswer, valueOf_codebook]
  rfl

/-- The rows of the symbols that are no codewords, in the order of their words (R93). -/
theorem otherSymbolRows :
    (((List.range 64).map (BitVec.ofNat 6)).filter fun x => !isCodeword x).map symbolInstr =
      [.inv00, .inv01, .inv02, .inv03, .inv04, .inv05, .inv06, .inv07, .inv08, .inv09, .inv0A, .inv0C, .inv0F,
        .inv10, .inv11, .inv12, .inv14, .inv15, .inv17, .inv18, .inv1B, .inv1D, .inv1E, .inv1F, .inv20, .inv21, .inv22,
        .inv24, .inv27, .inv28, .inv2A, .inv2B, .inv2D, .inv2E, .inv2F, .inv30, .inv33, .inv35, .inv36, .inv37, .inv38,
        .inv39, .inv3A, .inv3B, .inv3C, .inv3D, .inv3E, .inv3F] := by decide

/-- Settles O15: each of the 48 rows is that of a symbol that is no codeword. -/
theorem otherSymbolOperationsAnswerFail : Obligations.OtherSymbolOperationsAnswerFail := by
  intro i hi s
  rw [← otherSymbolRows] at hi
  obtain ⟨x, hx, rfl⟩ := List.mem_map.1 hi
  have hnone : valueOf Params.codebook x = none := by simpa [isCodeword] using (List.mem_filter.1 hx).2
  rw [exec_symbolInstr, symbolAnswer, hnone]
  rfl

/-- With nothing presented the state register is read (R140). -/
theorem decode_fetchWord_of_no_request {s : State} (h : s.request = none) :
    decode (fetchWord s) = .ok (pollInstr s.eng.state) := by
  rw [fetchWord, h]
  exact decode_stateCode s.eng.state

/-- Settles O54: the register holds the state, whose code selects its poll. -/
theorem stateRegisterSelectsThePoll : Obligations.StateRegisterSelectsThePoll := by
  intro s h
  have hpoll : ∀ a, s.eng.state = a → decode (fetchWord s) = .ok (pollInstr a) :=
    fun _ ha => ha ▸ decode_fetchWord_of_no_request h
  exact ⟨hpoll .initRx, hpoll .waitForSync, hpoll .waitForData, hpoll .readData⟩

end Sys2Proof.Machine
end

section
/-! SUPPORT. The line code as a whole (R120 to R128): when a decode fails, how long its result is, that an encoding carries the codewords of
its operand's nibbles and nothing more, and what the operations called by name answer. -/

namespace Sys2Proof.Machine

/-! ### When a decode fails (R122, R123) -/

theorem decodeWith_eq_none (cb : Codebook) (s : List Byte) :
    decodeWith cb s = none ↔ s.length % 3 = 1 ∨ ∃ x ∈ symbolsOf s, valueOf cb x = none := by
  unfold decodeWith
  split
  · next h => simp [h]
  · next h => simp [h, valuesOf_eq_none]

theorem isCodeword_eq_false {x : Sym} : isCodeword x = false ↔ valueOf Params.codebook x = none := by
  rw [isCodeword, Option.isSome_eq_false_iff, Option.isNone_iff_eq_none]

/-- DECODE fails for a length of 1 modulo 3 or a symbol that is no codeword, and for nothing else (R122, R123). -/
theorem lineDecode_eq_none {s : List Byte} :
    lineDecode s = none ↔ s.length % 3 = 1 ∨ ∃ x ∈ symbolsOf s, isCodeword x = false := by
  simp only [lineDecode, decodeWith_eq_none, isCodeword_eq_false]

/-- The values of a symbol list are the list that agrees with the codebook place by place (R120). -/
theorem valuesOf_eq_some {cb : Codebook} {xs : List Sym} {vs : List Nibble} :
    valuesOf cb xs = some vs ↔ List.Forall₂ (fun x v => valueOf cb x = some v) xs vs := by
  induction xs generalizing vs with
  | nil => simp [valuesOf, eq_comm]
  | cons x xs ih =>
    rw [List.forall₂_cons_left_iff]
    simp only [← ih, valuesOf]
    cases valueOf cb x <;> cases valuesOf cb xs <;> simp [eq_comm]

theorem decodeWith_eq_some {cb : Codebook} {s : List Byte} {vs : List Nibble} (hlen : s.length % 3 ≠ 1)
    (hvs : valuesOf cb (symbolsOf s) = some vs) : decodeWith cb s = some (pairUp vs) := by
  rw [decodeWith, if_neg hlen, hvs, Option.map_some]

/-! ### The length of a result (R124) -/

/-- Settles O8: the length of a result, for the two residues of the operand's length that decode. -/
theorem decodedLengthMatchesEncodedSize : Obligations.DecodedLengthMatchesEncodedSize := by
  intro s d h
  obtain ⟨hlen, -⟩ := lineDecode_spec h
  have hd := lineDecode_length h
  unfold encodedSize
  constructor <;> omega

/-! ### The nibbles of a byte sequence (R71) -/

/-- The nibbles of a byte sequence, each byte's high nibble first: what ENCODE gives codewords for. -/
def nibblesOf (d : List Byte) : List Nibble := d.flatMap fun y => [hiNibble y, loNibble y]

@[simp] theorem nibblesOf_nil : nibblesOf [] = [] := rfl

@[simp] theorem nibblesOf_cons (y : Byte) (d : List Byte) :
    nibblesOf (y :: d) = hiNibble y :: loNibble y :: nibblesOf d := rfl

theorem pairUp_nibblesOf (d : List Byte) : pairUp (nibblesOf d) = d := by
  induction d with
  | nil => rfl
  | cons y d ih => rw [nibblesOf_cons, pairUp, nibbles_append, ih]

/-! ### What an encoding carries (R125, R128) -/

theorem encodeWith_length (cb : Codebook) : ∀ d : List Byte, (encodeWith cb d).length = encodedSize d.length
  | [] => rfl
  | [_] => by simp [encodeWith, encodedSize]
  | d0 :: d1 :: rest => by
    simp only [encodeWith, groupBytes, List.length_append, List.length_cons, List.length_nil, encodeWith_length cb rest,
      encodedSize]
    omega

/-- The symbols of an encoding are the codewords of the operand's nibbles, in order (R128). -/
theorem symbolsOf_encodeWith (cb : Codebook) :
    ∀ d : List Byte, symbolsOf (encodeWith cb d) = (nibblesOf d).map (codewordOf cb)
  | [] => rfl
  | [d0] => by simp [encodeWith, symbolsOf, symAt0_pack, symAt6_tail]
  | d0 :: d1 :: rest => by simp [encodeWith, symbolsOf_encodeWith cb rest]

theorem bitstream_append (s t : List Byte) : bitstream (s ++ t) = bitstream s ++ bitstream t := List.flatMap_append

/-- A packed group carries its four symbols' bits (R95). -/
theorem bitstream_groupBytes (a b c d : Sym) : bitstream (groupBytes a b c d) = [a, b, c, d].flatMap symBits := by
  rw [groupBytes, bitstream_window, symAt0_pack, symAt6_pack, symAt4_pack, symAt2_pack]

/-- A tail carries its two symbols' bits and four zero bits (R96). -/
theorem bitstream_tail (a b : Sym) :
    bitstream [packByte0 a b, tailByte1 b] = [a, b].flatMap symBits ++ [false, false, false, false] := by
  have hcut : bitstream [packByte0 a b, tailByte1 b] =
      [symAt0 (packByte0 a b), symAt6 (packByte0 a b) (tailByte1 b)].flatMap symBits ++
        [(tailByte1 b).getLsbD 3, (tailByte1 b).getLsbD 2, (tailByte1 b).getLsbD 1, (tailByte1 b).getLsbD 0] := by
    simp [symBits_symAt0, symBits_symAt6, bitstream, byteBits]
  rw [hcut, symAt0_pack, symAt6_tail]
  simp only [tailByte1_bit]
  simp

/-- The zero bits at the end of an encoding of `n` bytes: four for an odd count (R96, R128). -/
def padBits (n : Nat) : List Bool := if n % 2 = 1 then [false, false, false, false] else []

/-- The bit stream of an encoding is the codewords in order, and the pad (R128). -/
theorem bitstream_encodeWith (cb : Codebook) : ∀ d : List Byte,
    bitstream (encodeWith cb d) = (nibblesOf d).flatMap (fun v => symBits (codewordOf cb v)) ++ padBits d.length
  | [] => rfl
  | [d0] => bitstream_tail _ _
  | d0 :: d1 :: rest => by
    have hpad : padBits (rest.length + 1 + 1) = padBits rest.length := by simp only [padBits, Nat.add_assoc, Nat.add_mod_right]
    rw [encodeWith, bitstream_append, bitstream_groupBytes, bitstream_encodeWith cb rest]
    simp only [nibblesOf_cons, List.flatMap_cons, List.flatMap_nil, List.append_nil, List.append_assoc, List.length_cons, hpad]

/-! ### The laws of the line code (R127) -/

/-- The codewords of values decode to those values (R91). -/
theorem valuesOf_codewords {cb : Codebook} (hlen : cb.length = 16) (hn : cb.Nodup) (vs : List Nibble) :
    valuesOf cb (vs.map (codewordOf cb)) = some vs := by
  rw [valuesOf_eq_some, List.forall₂_map_left_iff, List.forall₂_same]
  exact fun v _ => valueOf_codewordOf hlen hn v

theorem decodeWith_encodeWith {cb : Codebook} (hlen : cb.length = 16) (hn : cb.Nodup) (d : List Byte) :
    decodeWith cb (encodeWith cb d) = some d := by
  have hsize : (encodeWith cb d).length % 3 ≠ 1 := by
    rw [encodeWith_length, encodedSize]
    omega
  have hvs : valuesOf cb (symbolsOf (encodeWith cb d)) = some (nibblesOf d) := by
    rw [symbolsOf_encodeWith, valuesOf_codewords hlen hn]
  rw [decodeWith_eq_some hsize hvs, pairUp_nibblesOf]

/-- Settles O7: the table's rows invert, so an encoding gives its nibbles back; the failures are those of `decodeWith_eq_none`. -/
theorem lineCodeLawsForEveryCodebook : Obligations.LineCodeLawsForEveryCodebook := by
  intro cb ⟨hlen, hn, _⟩
  exact ⟨decodeWith_encodeWith hlen hn, encodeWith_length cb,
    fun s x hx hbad => (decodeWith_eq_none cb s).2 (.inr ⟨x, hx, hbad⟩),
    fun s h1 => (decodeWith_eq_none cb s).2 (.inl h1)⟩

/-! ### The operations called by name (R120 to R128) -/

theorem exec_decode_of_none {bs : List Byte} (h : lineDecode bs = none) (s : State) :
    exec (.decode bs) s = answer .fail s := by
  simp only [exec, execDecode, h]

theorem exec_decode_of_some {bs out : List Byte} (h : lineDecode bs = some out) (s : State) :
    exec (.decode bs) s = answer (.bytes out) s := by
  simp only [exec, execDecode, h]

theorem exec_encode (d : List Byte) (s : State) : exec (.encode d) s = answer (.bytes (lineEncode d)) s := rfl

theorem exec_encodedSize (k : Nat) (s : State) : exec (.encodedSize k) s = answer (.size (encodedSize k)) s := rfl

theorem exec_modeTPacketSize (l : Byte) (s : State) :
    exec (.modeTPacketSize l) s = answer (.size (modeTPacketSize l)) s := rfl

/-- Settles O10: DECODE answers Fail where `lineDecode` has no result, and its result's bytes elsewhere. -/
theorem decodeOperationAnswers : Obligations.DecodeOperationAnswers := by
  intro bs s
  refine ⟨fun hbad => exec_decode_of_none (lineDecode_eq_none.2 hbad) s, fun hlen hgood => ?_⟩
  cases hd : lineDecode bs with
  | none =>
    obtain h1 | ⟨x, hx, hbad⟩ := lineDecode_eq_none.1 hd
    · exact absurd h1 hlen
    · rw [hgood x hx] at hbad
      cases hbad
  | some out =>
    refine ⟨out, exec_decode_of_some hd s, ?_, fun k y hk => lineDecode_get hd hk⟩
    rw [lineDecode_length hd]
    split <;> omega

/-- Settles O13: the length and the bit stream of an encoding with the block's codebook. -/
theorem encodeOperationAnswers : Obligations.EncodeOperationAnswers := fun d s =>
  ⟨lineEncode d, exec_encode d s, encodeWith_length _ d, bitstream_encodeWith _ d⟩

/-- Settles O11: the answers are the formulas, whose residues are arithmetic. -/
theorem sizeOperationsAnswer : Obligations.SizeOperationsAnswer := by
  refine ⟨exec_encodedSize, exec_modeTPacketSize, fun k hk => ?_, fun k hk => ?_, fun l => ?_⟩
  · unfold encodedSize
    omega
  · unfold encodedSize
    omega
  · unfold modeTPacketSize
    omega

/-! ### Ranges of the totals (R131) -/

theorem modeTPacketSize_range (l : Byte) : 1 ≤ modeTPacketSize l ∧ modeTPacketSize l ≤ 288 := by
  have := l.isLt
  unfold modeTPacketSize
  omega

/-- Settles O12: each total from the range of the packet size, or of the length byte. -/
theorem expectedTotalsStayInRange : Obligations.ExpectedTotalsStayInRange := by
  intro l
  obtain ⟨hlo, hhi⟩ := modeTPacketSize_range l
  have hbyte := l.isLt
  refine ⟨⟨hlo, hhi⟩, ?_, ?_, ?_⟩
  · unfold expectedBlockA
    omega
  · unfold expectedBlockB
    omega
  · unfold expectedModeT encodedSize
    omega

/-! ### DECODE and the symbol rows (R120, R122) -/

theorem answer_eq_next {r r' : CallResult} {s : State} (h : answer r s = .next (s.setCallResult r')) : r = r' :=
  congrArg State.callResult (Host.Outcome.next.inj h)

theorem symbolAnswer_eq_nibble {x : Sym} {v : Nibble} :
    symbolAnswer x = .nibble v ↔ valueOf Params.codebook x = some v := by
  unfold symbolAnswer
  cases valueOf Params.codebook x <;> simp

theorem symbolAnswer_eq_fail {x : Sym} : symbolAnswer x = .fail ↔ isCodeword x = false := by
  rw [isCodeword_eq_false]
  unfold symbolAnswer
  cases valueOf Params.codebook x <;> simp

/-- The operation a symbol decodes to answers `r` exactly when the codebook does. -/
theorem symbolOperation_answers_iff {x : Sym} {r : CallResult} {s : State} :
    (∃ i, decode (.bits 6 x.toNat) = .ok i ∧ exec i s = .next { s with callResult := r }) ↔ symbolAnswer x = r := by
  constructor
  · rintro ⟨i, hi, hx⟩
    obtain rfl : symbolInstr x = i := Except.ok.inj ((decode_symbolWord x).symm.trans hi)
    exact answer_eq_next ((exec_symbolInstr x s).symm.trans hx)
  · rintro rfl
    exact ⟨_, decode_symbolWord x, exec_symbolInstr x s⟩

/-- Settles O16: a symbol's operation answers its value or Fail, which is what `valuesOf` collects. -/
theorem decodeAgreesWithTheSymbolOperations : Obligations.DecodeAgreesWithTheSymbolOperations := by
  intro bs s hlen
  simp only [symbolOperation_answers_iff, symbolAnswer_eq_fail, symbolAnswer_eq_nibble]
  refine ⟨lineDecode_eq_none.trans (or_iff_right hlen), fun vs hvs hval => decodeWith_eq_some hlen ?_⟩
  rw [valuesOf_eq_some, List.forall₂_iff_get]
  exact ⟨hvs.symm, fun k hx hv => hval k _ _ (List.getElem?_eq_getElem hx) (List.getElem?_eq_getElem hv)⟩

end Sys2Proof.Machine
end

section
/-! SUPPORT. The host's wait (R243, R250, R251): a batch that continues another, the wait on a whole schedule as the wait on its events in
order, and its two ends, the wake signal and the timeout. Then what a step does around its operation. -/

namespace Sys2Proof.Machine

/-! ### The time a list of events takes, and the bytes it brings (R212, R215) -/

@[simp] theorem elapsed_nil : elapsed [] = 0 := rfl

@[simp] theorem elapsed_cons (e : Event) (es : List Event) : elapsed (e :: es) = e.elapses + elapsed es := by simp [elapsed]

@[simp] theorem elapsed_append (es more : List Event) : elapsed (es ++ more) = elapsed es + elapsed more := by
  simp [elapsed]

@[simp] theorem arrivals_nil : arrivals [] = [] := rfl

@[simp] theorem arrivals_cons (e : Event) (es : List Event) : arrivals (e :: es) = e.arrives ++ arrivals es := rfl

@[simp] theorem arrivals_append (es more : List Event) : arrivals (es ++ more) = arrivals es ++ arrivals more :=
  List.flatMap_append

/-- Only a step of the clock takes time, and it brings no byte. -/
theorem arrives_of_elapses {e : Event} (h : 0 < e.elapses) : e.arrives = [] := by
  cases e with
  | time d => rfl
  | _ => cases h

theorem bytesToCome_eq_arrivals (s : State) : bytesToCome s = arrivals s.schedule.flatten := by
  rw [bytesToCome]
  induction s.schedule with
  | nil => rfl
  | cons batch rest ih => rw [List.flatMap_cons, List.flatten_cons, arrivals_append, ih]

/-! ### The wait on a list of events (R251) -/

@[simp] theorem waitBatch_nil (left : Nat) (s : State) : waitBatch left [] s = (left, [], s) := by cases left <;> rfl

@[simp] theorem waitBatch_zero (es : List Event) (s : State) : waitBatch 0 es s = (0, es, s) := by cases es <;> rfl

/-- The wake signal ends the wait (R251). -/
theorem waitBatch_wake {left : Nat} (h : 0 < left) (es : List Event) (s : State) :
    waitBatch left (.wake :: es) s = (0, es, applyEvent s .wake) := by
  obtain ⟨n, rfl⟩ := Nat.exists_eq_succ_of_ne_zero h.ne'
  rw [waitBatch, if_pos rfl]

/-- An event that ends before the timeout is taken, and the wait goes on (R251). -/
theorem waitBatch_of_lt {left : Nat} {e : Event} (hw : e ≠ .wake) (h : e.elapses < left) (es : List Event) (s : State) :
    waitBatch left (e :: es) s = waitBatch (left - e.elapses) es (applyEvent s e) := by
  obtain ⟨n, rfl⟩ := Nat.exists_eq_succ_of_ne_zero (Nat.ne_zero_of_lt h)
  rw [waitBatch, if_neg hw, if_pos h]

/-- A step of the clock that reaches the timeout is cut there (R251). -/
theorem waitBatch_of_ge {left : Nat} {e : Event} (hw : e ≠ .wake) (h0 : 0 < left) (h : left ≤ e.elapses) (es : List Event)
    (s : State) : waitBatch left (e :: es) s = (0, .time (e.elapses - left) :: es, applyEvent s (.time left)) := by
  obtain ⟨n, rfl⟩ := Nat.exists_eq_succ_of_ne_zero h0.ne'
  rw [waitBatch, if_neg hw, if_neg (Nat.not_lt.2 h)]

/-- What a wait takes from events in a row it takes from the first ones, and from the rest if time is left then. -/
theorem waitBatch_append (left : Nat) (es more : List Event) (s : State) : waitBatch left (es ++ more) s =
    if (waitBatch left es s).1 = 0 then (0, (waitBatch left es s).2.1 ++ more, (waitBatch left es s).2.2)
    else waitBatch (waitBatch left es s).1 more (waitBatch left es s).2.2 := by
  induction es generalizing left s with
  | nil =>
    obtain rfl | h := Nat.eq_zero_or_pos left
    · simp
    · simp [h.ne']
  | cons e es ih =>
    obtain rfl | h0 := Nat.eq_zero_or_pos left
    · simp
    · by_cases hw : e = .wake
      · subst hw
        simp [waitBatch_wake h0]
      · obtain h | h := Nat.lt_or_ge e.elapses left
        · rw [List.cons_append, waitBatch_of_lt hw h, waitBatch_of_lt hw h, ih]
        · simp [waitBatch_of_ge hw h0 h]

/-- The first wake signal before the timeout ends the wait, and what stands behind it is left (R251). -/
theorem waitBatch_of_wake {left : Nat} {before : List Event} (hw : .wake ∉ before) (h : elapsed before < left)
    (after : List Event) (s : State) :
    waitBatch left (before ++ .wake :: after) s = (0, after, applyEvent (applyEvents s before) .wake) := by
  induction before generalizing left s with
  | nil => exact waitBatch_wake h after s
  | cons e before ih =>
    obtain ⟨hne, hnot⟩ := List.ne_and_not_mem_of_not_mem_cons hw
    rw [elapsed_cons] at h
    rw [List.cons_append, waitBatch_of_lt hne.symm (by omega), ih hnot (by omega)]
    rfl

/-- With no wake signal before the timeout the wait takes the time it had, or leaves what the events lack of it, and it loses no byte
(R251). -/
theorem waitBatch_of_no_wake {left : Nat} {es : List Event}
    (h : ∀ before after, es = before ++ .wake :: after → left ≤ elapsed before) (s : State) :
    ∃ before, .wake ∉ before ∧ elapsed before + (waitBatch left es s).1 = left ∧
      (waitBatch left es s).2.2 = applyEvents s before ∧
      arrivals before ++ arrivals (waitBatch left es s).2.1 = arrivals es := by
  induction es generalizing left s with
  | nil => exact ⟨[], by simp, by simp, by simp [applyEvents], by simp⟩
  | cons e es ih =>
    obtain rfl | h0 := Nat.eq_zero_or_pos left
    · exact ⟨[], by simp, by simp, by simp [applyEvents], by simp⟩
    · have hne : e ≠ .wake := by
        rintro rfl
        have hnow := h [] es rfl
        rw [elapsed_nil] at hnow
        omega
      obtain hlt | hge := Nat.lt_or_ge e.elapses left
      · have hrest : ∀ before after, es = before ++ .wake :: after → left - e.elapses ≤ elapsed before := by
          intro before after heq
          have hlater := h (e :: before) after (by rw [heq]; rfl)
          rw [elapsed_cons] at hlater
          omega
        obtain ⟨before, hw, hsum, hstate, hbytes⟩ := ih hrest (applyEvent s e)
        rw [waitBatch_of_lt hne hlt]
        refine ⟨e :: before, by simp [hw, hne.symm], ?_, hstate, ?_⟩
        · rw [elapsed_cons]
          omega
        · rw [arrivals_cons, List.append_assoc, hbytes, arrivals_cons]
      · rw [waitBatch_of_ge hne h0 hge]
        refine ⟨[.time left], by simp, by simp [Event.elapses], rfl, ?_⟩
        rw [arrivals_cons e, arrives_of_elapses (h0.trans_le hge)]
        rfl

/-! ### The wait on a schedule (R251) -/

theorem waitSchedule_cons (left : Nat) (batch : List Event) (rest : List (List Event)) (s : State) :
    waitSchedule left (batch :: rest) s = if (waitBatch left batch s).1 = 0 then
        (waitBatch left batch s).2.2.setSchedule ((waitBatch left batch s).2.1 :: rest)
      else waitSchedule (waitBatch left batch s).1 rest (waitBatch left batch s).2.2 := by
  rw [waitSchedule]
  generalize waitBatch left batch s = w
  obtain ⟨_ | n, es, t⟩ := w <;> rfl

/-- The batches of a schedule make no difference to the wait: it takes their events in order, and then the rest of its time. -/
theorem waitSchedule_eq (left : Nat) (l : List (List Event)) (s : State) :
    ∃ l', l'.flatten = (waitBatch left l.flatten s).2.1 ∧ waitSchedule left l s =
      (applyEvent (waitBatch left l.flatten s).2.2 (.time (waitBatch left l.flatten s).1)).setSchedule l' := by
  induction l generalizing left s with
  | nil => exact ⟨[], by simp, by simp only [List.flatten_nil, waitBatch_nil]; rfl⟩
  | cons batch rest ih =>
    rw [waitSchedule_cons, List.flatten_cons, waitBatch_append]
    split
    · exact ⟨_ :: rest, rfl, rfl⟩
    · exact ih _ _

/-! ### The wait of the host (R243, R251) -/

/-- Other agents than the one that signals leave the wake signal as it is (R243). -/
theorem applyEvent_wakeFlag {e : Event} (h : e ≠ .wake) (s : State) : (applyEvent s e).plat.wakeFlag = s.plat.wakeFlag := by
  cases e with
  | wake => exact absurd rfl h
  | consume i =>
    simp only [applyEvent, consume]
    split
    · rfl
    · cases i <;> rfl
  | _ => rfl

theorem applyEvents_wakeFlag {es : List Event} (h : .wake ∉ es) (s : State) :
    (applyEvents s es).plat.wakeFlag = s.plat.wakeFlag := by
  induction es generalizing s with
  | nil => rfl
  | cons e es ih =>
    obtain ⟨hne, hnot⟩ := List.ne_and_not_mem_of_not_mem_cons h
    exact (ih hnot _).trans (applyEvent_wakeFlag hne.symm s)

/-- Consuming a wake signal that is down changes nothing (R243). -/
theorem consumeWake_of_down {s : State} (h : s.plat.wakeFlag = false) :
    s.setPlat { s.plat with wakeFlag := false } = s := by
  rw [← h]
  rfl

/-- The timeout is the long one with an interrupt line and an idle engine (R153, R251). -/
theorem hostWait_of_idle {s : State} (hi : s.cfg.hasInterrupt = true) (hs : s.eng.state = .waitForSync) :
    hostWait s = s.cfg.idleWaitMs := by
  simp [hostWait, idle, hi, hs]

/-- Otherwise it is the poll period (R153, R251). -/
theorem hostWait_of_polling {s : State} (h : s.cfg.hasInterrupt = false ∨ s.eng.state ≠ .waitForSync) :
    hostWait s = Params.pollPeriodMs := by
  obtain h | h := h <;> simp [hostWait, idle, h]

/-- A pending wake signal ends the wait at once (R243). -/
theorem awaitPoll_of_pending {s : State} (h : s.plat.wakeFlag = true) :
    awaitPoll s = s.setPlat { s.plat with wakeFlag := false } := by
  simp only [awaitPoll, if_pos h]

/-- With none pending the host waits through the schedule (R251). -/
theorem awaitPoll_of_down {s : State} (h : s.plat.wakeFlag = false) : awaitPoll s =
    (waitSchedule (hostWait s) s.schedule s).setPlat
      { (waitSchedule (hostWait s) s.schedule s).plat with wakeFlag := false } := by
  simp [awaitPoll, h]

/-- The first wake signal before the timeout ends the wait there (R243, R251). -/
theorem awaitPoll_of_wake {s : State} {before after : List Event} (hdown : s.plat.wakeFlag = false)
    (hsched : s.schedule.flatten = before ++ .wake :: after) (hw : .wake ∉ before) (h : elapsed before < hostWait s) :
    ∃ l, l.flatten = after ∧ awaitPoll s = (applyEvents s before).setSchedule l := by
  obtain ⟨l, hl, heq⟩ := waitSchedule_eq (hostWait s) s.schedule s
  rw [hsched, waitBatch_of_wake hw h] at hl heq
  refine ⟨l, hl, ?_⟩
  rw [awaitPoll_of_down hdown, heq]
  exact consumeWake_of_down (s := (applyEvents s before).setSchedule l) ((applyEvents_wakeFlag hw s).trans hdown)

/-- With no wake signal before the timeout the wait ends there (R251). -/
theorem awaitPoll_of_timeout {s : State} (hdown : s.plat.wakeFlag = false)
    (h : ∀ before after, s.schedule.flatten = before ++ .wake :: after → hostWait s ≤ elapsed before) :
    ∃ before l, .wake ∉ before ∧ elapsed before = hostWait s ∧ awaitPoll s = (applyEvents s before).setSchedule l ∧
      arrivals before ++ arrivals l.flatten = bytesToCome s := by
  obtain ⟨l, hl, heq⟩ := waitSchedule_eq (hostWait s) s.schedule s
  obtain ⟨before, hw, hsum, hstate, hbytes⟩ := waitBatch_of_no_wake h s
  generalize (waitBatch (hostWait s) s.schedule.flatten s).1 = left at hsum heq
  have hw' : .wake ∉ before ++ [.time left] := by simp [hw]
  have hend : waitSchedule (hostWait s) s.schedule s = (applyEvents s (before ++ [.time left])).setSchedule l := by
    rw [heq, hstate, applyEvents, applyEvents, List.foldl_append]
    rfl
  refine ⟨before ++ [.time left], l, hw', ?_, ?_, ?_⟩
  · rw [elapsed_append, ← hsum]
    rfl
  · rw [awaitPoll_of_down hdown, hend]
    exact consumeWake_of_down (s := (applyEvents s (before ++ [Event.time left])).setSchedule l)
      ((applyEvents_wakeFlag hw' s).trans hdown)
  · rw [bytesToCome_eq_arrivals, ← hbytes, hl, arrivals_append]
    simp [Event.arrives]

/-- Settles O52: the two timeouts, and the three ways a wait ends. -/
theorem hostWaitEndsAtTheTimeoutOrTheWakeSignal : Obligations.HostWaitEndsAtTheTimeoutOrTheWakeSignal := by
  intro s
  obtain ⟨-, -, hconsumed⟩ := awaitPoll_agentsOnly s
  exact ⟨hostWait_of_idle, hostWait_of_polling, awaitPoll_of_pending,
    fun hdown _ _ hsched hw h => awaitPoll_of_wake hdown hsched hw h, awaitPoll_of_timeout,
    hconsumed, awaitPoll_eng s, awaitPoll_cfg s, awaitPoll_result s⟩

/-! ### What a step does around its operation (R140, R250, R255, R273) -/

/-- What decodes and may run goes between the fetch and the host's acceptance (R140, R250). -/
theorem step_of_decode {s : State} {i : Instr} (hd : decode (fetchWord s) = .ok i)
    (h : ¬ (i.isPoll = true ∧ s.plat.setupAborted = true)) : step s = finishStep i (exec i (beginStep i s)) := by
  simp only [step, hd, if_neg h]

/-- A poll after an aborted setup is a fault (R273). -/
theorem step_of_aborted {s : State} {i : Instr} (hd : decode (fetchWord s) = .ok i) (hp : i.isPoll = true)
    (ha : s.plat.setupAborted = true) : step s = .fault .chipUnresponsive := by
  simp only [step, hd, if_pos (And.intro hp ha)]

/-- The host has no part in the end of an operation that is no poll. -/
theorem finishStep_of_not_poll {i : Instr} (hp : i.isPoll = false) (o : Host.Outcome State Fault Refusal) :
    finishStep i o = o := by
  cases o <;> simp [finishStep, hp]

theorem acceptResult_of_noFrame {t : State} (h : t.result = .noFrame) : acceptResult t = t := by
  simp only [acceptResult, h]

theorem acceptResult_of_frame {t : State} {f : RawFrame} (h : t.result = .frameReady f) : acceptResult t = pushFrame f t := by
  simp only [acceptResult, h]

/-- Settles O53. -/
theorem stepRunsTheDecodedOperation : Obligations.StepRunsTheDecodedOperation := by
  intro s i hd _
  refine ⟨fun hp => ?_, step_of_aborted hd, fun hp ha s0 hs0 => ?_⟩
  · rw [step_of_decode hd (by simp [hp]), finishStep_of_not_poll hp, beginStep, hp]
    rfl
  · have hbegin : beginStep i s = s0 := by rw [hs0, beginStep, if_pos hp]; rfl
    rw [step_of_decode hd (by simp [ha]), hbegin]
    refine ⟨fun t hx hr => ?_, fun t f hx hr => ?_, fun r hx => ?_⟩ <;> rw [hx, finishStep]
    · rw [if_pos hp, acceptResult_of_noFrame hr]
    · rw [if_pos hp, acceptResult_of_frame hr]

end Sys2Proof.Machine
end

section
/-! SUPPORT. The InitRx step in full (R143 to R145, R202): what it programs, what it leaves as it was, and which bytes the receive FIFO
holds after it. -/

namespace Sys2Proof.Machine

/-! ### What the recovery programs and keeps (R143, R144) -/

@[simp] theorem recover_txFifo (s : State) : (recover s).env.txFifo = [] := by
  simp only [recover, State.setEng_env, (confirmRx_agentsOnly _ _).txFifo]
  simp [cmdEnterRx, cmdSetLengthMode, cmdSetThreshold, cmdFlushTx]

@[simp] theorem recover_rxRequested (s : State) : (recover s).env.rxRequested = true := by
  simp only [recover, State.setEng_env, (confirmRx_agentsOnly _ _).rxRequested]
  simp [cmdEnterRx]

@[simp] theorem recover_callResult (s : State) : (recover s).callResult = s.callResult := by
  simp only [recover, State.setEng_callResult, (confirmRx_agentsOnly _ _).callResult]
  simp [cmdEnterRx, cmdSetLengthMode, cmdSetThreshold, cmdFlushTx, cmdFlushRx]

@[simp] theorem recover_freeCount (s : State) : (recover s).freeCount = s.freeCount := by
  simp only [recover, State.setEng_freeCount, (confirmRx_agentsOnly _ _).freeCount]
  simp [cmdEnterRx, cmdSetLengthMode, cmdSetThreshold, cmdFlushTx, cmdFlushRx]

/-! ### The bytes that arrive after a flush (R202, R212) -/

/-- `u` comes after `v`, where the receive FIFO of `u` holds, in order, as many as it can of the bytes that arrived in between. -/
def ArrivedSince (v u : State) : Prop :=
  ∃ arrived, bytesToCome v = arrived ++ bytesToCome u ∧ u.env.rxFifo = arrived.take Params.fifoCapacity

section
variable {v u : State}

/-- What writes neither the receive FIFO nor the schedule. -/
theorem ArrivedSince.of_same {w : State} (h : ArrivedSince v u) (hfifo : w.env.rxFifo = u.env.rxFifo)
    (hsched : w.schedule = u.schedule) : ArrivedSince v w := by
  rwa [ArrivedSince, bytesToCome, bytesToCome, hfifo, hsched]

/-- A turn lets further bytes in behind those that arrived before (R61, R212). -/
theorem ArrivedSince.turn (h : ArrivedSince v u) : ArrivedSince v (turn u) := by
  obtain ⟨arrived, hcome, hfifo⟩ := h
  have hroom : Params.fifoCapacity - (arrived.take Params.fifoCapacity).length = Params.fifoCapacity - arrived.length := by
    rw [List.length_take]
    omega
  refine ⟨arrived ++ arrivals (u.schedule.headD []), ?_, ?_⟩
  · rw [hcome, bytesToCome_turn u, List.append_assoc]
  · rw [turn_rxFifo, hfifo, hroom, List.take_append]

/-! The port operations of the recovery after its flush: each is a turn and a write of something else (D41, R143). -/

theorem ArrivedSince.cmdFlushTx (h : ArrivedSince v u) : ArrivedSince v (cmdFlushTx u) := h.turn.of_same rfl rfl

theorem ArrivedSince.cmdSetThreshold (h : ArrivedSince v u) (n : Nat) : ArrivedSince v (cmdSetThreshold n u) :=
  h.turn.of_same rfl rfl

theorem ArrivedSince.cmdSetLengthMode (h : ArrivedSince v u) (m : ChipLengthMode) :
    ArrivedSince v (cmdSetLengthMode m u) :=
  h.turn.of_same rfl rfl

theorem ArrivedSince.cmdEnterRx (h : ArrivedSince v u) : ArrivedSince v (cmdEnterRx u) := h.turn.of_same rfl rfl

theorem ArrivedSince.confirmRx (h : ArrivedSince v u) (n : Nat) : ArrivedSince v (confirmRx n u) := by
  induction n generalizing u with
  | zero => exact h.of_same rfl rfl
  | succ n ih =>
    rw [Machine.confirmRx]
    split
    · exact h.turn
    · exact ih h.turn

end

theorem cmdFlushRx_arrivedSince (s : State) : ArrivedSince (turn s) (cmdFlushRx s) := ⟨[], rfl, rfl⟩

/-- The flush comes first and empties the FIFO; what the other agents bring after it stays (D41, R143, R202). -/
theorem recover_arrivedSince (s : State) : ArrivedSince (turn s) (recover s) :=
  (((((cmdFlushRx_arrivedSince s).cmdFlushTx.cmdSetThreshold _).cmdSetLengthMode _).cmdEnterRx).confirmRx _).of_same rfl rfl

/-- Settles O22: the writes of `recover`, and the bytes that its turns let in behind the flush. -/
theorem initRxRearmsTheEngine : Obligations.InitRxRearmsTheEngine := fun s =>
  ⟨(recover s).setResult .noFrame, rfl, recover_eng s, rfl, recover_txFifo s, recover_fifoThr s, recover_chipLengthMode s,
    recover_rxRequested s, (SetupKept.refl s).recover.freq, recover_arrivedSince s, (recover_onward s).cfg,
    recover_callResult s, (recover_onward s).request, recover_freeCount s⟩

/-! ### On a quiet channel (R143) -/

/-- On a quiet channel every confirmation read finds the same chip state (R145). -/
theorem confirmRx_quiet {s : State} (hs : s.schedule = []) (n : Nat) : confirmRx n s =
    if 0 < n ∧ Config.showsReceive s.env.chipState = true then s else emit .rxNotConfirmed s := by
  induction n with
  | zero => rfl
  | succ n ih =>
    rw [confirmRx, turn_quiet hs, ih]
    by_cases hc : Config.showsReceive s.env.chipState = true <;> simp [hc]

/-- The transceiver once the commands of the InitRx step have run with no other agent between them (R143, R144, R202). -/
def Env.rearmed (e : Env) (thr : Nat) : Env :=
  { e with
    rxFifo := [], txFifo := [], fifoThr := thr, chipLengthMode := .infinite, rxRequested := true,
    overflowFlag := e.overflowFlag && !e.flushClearsOverflow, reception := e.reception.arm e.syncLine }

theorem recover_quiet {s : State} (hs : s.schedule = []) : recover s =
    (confirmRx s.cfg.rxConfirmPolls (s.setEnv (s.env.rearmed s.cfg.fifoThrInitial))).setEng Engine.rearmed := by
  simp only [recover, cmdEnterRx, cmdSetLengthMode, cmdSetThreshold, cmdFlushTx, cmdFlushRx, turn_quiet, hs,
    State.setEnv_schedule]
  rfl

/-- Settles O23. -/
theorem initRxWritesNothingElse : Obligations.InitRxWritesNothingElse := by
  intro s hs
  have hx : exec .pollInitRx s = returnNoFrame (recover s) := rfl
  rw [hx, recover_quiet hs, confirmRx_quiet (by exact hs)]
  by_cases hc : 0 < s.cfg.rxConfirmPolls ∧ Config.showsReceive s.env.chipState = true
  · rw [if_pos hc, if_pos (by exact hc)]
    rfl
  · rw [if_neg hc, if_neg (by exact hc)]
    rfl

end Sys2Proof.Machine
end

section
/-! SUPPORT. The WaitForSync step test by test (R147 to R150), and the pairs of states that polls go between (R141). -/

namespace Sys2Proof.Machine

/-! ### WaitForSync (R147, R148, R149) -/

section
variable {s : State}

/-- Overflow comes first (R147, R238). -/
theorem execPollWaitForSync_of_overflow (h : (turn s).env.overflowFlag = true) :
    execPollWaitForSync s = raiseAbort .rxOverflow (turn s) := by
  simp only [execPollWaitForSync, inOverflow, if_pos h]

/-- Sync seen goes on as the WaitForData step in the same call (R149). -/
theorem execPollWaitForSync_of_sync (h : (turn s).env.overflowFlag = false) (hs : (turn (turn s)).env.syncLine = true) :
    execPollWaitForSync s = waitForDataStep ((turn (turn (turn s))).setEng
      ((turn (turn (turn s))).eng.syncSeen (turn (turn (turn s))).env.now)) := by
  simp only [execPollWaitForSync, inOverflow, h, inSync, if_pos hs, inNow]
  rfl

/-- Without overflow and sync only the noise is left to look at (R148). -/
theorem execPollWaitForSync_of_noise (h : (turn s).env.overflowFlag = false) (hs : (turn (turn s)).env.syncLine = false) :
    execPollWaitForSync s = returnNoFrame
      (if Params.noiseDrainThreshold < (turn (turn (turn s))).env.rxFifo.length then cmdFlushRx (turn (turn (turn s)))
      else turn (turn (turn s))) := by
  simp only [execPollWaitForSync, inOverflow, h, inSync, hs, inOccupancy, Bool.false_eq_true, if_false]
  split <;> rfl

end

/-- Settles O26. -/
theorem waitForSyncTestsInOrder : Obligations.WaitForSyncTestsInOrder := by
  rintro s _ _ _ rfl rfl rfl
  refine ⟨execPollWaitForSync_of_overflow, execPollWaitForSync_of_sync, fun h hs hocc => ?_, fun h hs hocc => ?_⟩
  · exact (execPollWaitForSync_of_noise h hs).trans (by rw [if_neg (Nat.not_lt.2 hocc)]; rfl)
  · exact (execPollWaitForSync_of_noise h hs).trans (by rw [if_pos (by exact hocc)]; rfl)

/-- Settles O27: on a quiet channel the three samples are of the same state. -/
theorem waitForSyncWithoutSyncCompletes : Obligations.WaitForSyncWithoutSyncCompletes := by
  intro s hs hov hsync
  have hturn := turn_quiet hs
  obtain ⟨-, -, hquiet, hnoise⟩ := waitForSyncTestsInOrder s s s s hturn.symm hturn.symm hturn.symm
  obtain hocc | hocc := Nat.lt_or_ge 32 s.env.rxFifo.length
  · simp only [hnoise hov hsync hocc, hturn, if_pos hocc, hov, Bool.false_and]
  · rw [hquiet hov hsync hocc, if_neg (Nat.not_lt.2 hocc)]

/-! ### The transition table (R141) -/

/-- An abort leaves each state that has one for InitRx, without a frame (R236). -/
theorem raiseAbort_allowed {k : AbortKind} {a : AcqState} {s t : State} (ha : a ≠ .initRx)
    (h : raiseAbort k s = .next t) : allowedTransition a t.eng.state t.result := by
  rw [raiseAbort_next h]
  cases a with
  | initRx => exact absurd rfl ha
  | readData => trivial
  | _ => rfl

/-- A return without a frame stays in the state it is in, which is not InitRx (R141). -/
theorem returnNoFrame_allowed {a : AcqState} {s t : State} (hs : s.eng.state = a) (ha : a ≠ .initRx)
    (h : returnNoFrame s = .next t) : allowedTransition a t.eng.state t.result := by
  rw [returnNoFrame_next h, State.setResult_eng, hs]
  cases a with
  | initRx => exact absurd rfl ha
  | _ => rfl

/-- A header window ends WaitForData in ReadData, is lost, or is too large (R169, R170, R172). -/
theorem execHeader_allowed {i : Instr} {s t : State} (hw : s.eng.state = .waitForData) (hh : i.isHeader = true)
    (hx : exec i s = .next t) : allowedTransition .waitForData t.eng.state t.result := by
  obtain ⟨c, h, -, heq⟩ | heq := exec_header hh <;> rw [heq] at hx
  · obtain hab | rfl := acceptHeader_next hx
    · exact raiseAbort_allowed nofun hab
    · rfl
  · exact returnNoFrame_allowed (s := emit (.kind .unclassifiableHeader) s) hw nofun hx

theorem readHeader_allowed {s t : State} (hw : s.eng.state = .waitForData) (h : readHeader s = .next t) :
    allowedTransition .waitForData t.eng.state t.result := by
  unfold readHeader at h
  split at h
  · next h0 h1 h2 u hr =>
    rw [runHeader_eq_exec] at h
    exact execHeader_allowed (by rw [rdFifo_eng hr, hw]) (headerInstr_isHeader h0 h1 h2) h
  · cases h

theorem readSyncTime_eng (s : State) : (readSyncTime s).2.eng = s.eng := by
  unfold readSyncTime
  split <;> rfl

theorem readExpected_eng (s : State) : (readExpected s).2.eng = s.eng := by
  unfold readExpected
  split <;> rfl

theorem waitForDataStep_allowed {s t : State} (hw : s.eng.state = .waitForData) (h : waitForDataStep s = .next t) :
    allowedTransition .waitForData t.eng.state t.result := by
  have hkept : (turn (turn (turn (readSyncTime s).2))).eng.state = .waitForData := by simp [readSyncTime_eng, hw]
  simp only [waitForDataStep] at h
  split_ifs at h
  · exact raiseAbort_allowed nofun h
  · exact raiseAbort_allowed nofun h
  · exact readHeader_allowed hkept h
  · exact returnNoFrame_allowed hkept nofun h

/-- What WaitForData may go to, WaitForSync may go to in the same call (R141, R149). -/
theorem allowedTransition_of_waitForData {z : AcqState} {r : PollResult} (h : allowedTransition .waitForData z r) :
    allowedTransition .waitForSync z r := by
  cases z with
  | waitForSync => exact h.elim
  | _ => exact h

theorem execPollWaitForSync_allowed {s t : State} (hw : s.eng.state = .waitForSync)
    (h : execPollWaitForSync s = .next t) : allowedTransition .waitForSync t.eng.state t.result := by
  cases hov : (turn s).env.overflowFlag with
  | true =>
    rw [execPollWaitForSync_of_overflow hov] at h
    exact raiseAbort_allowed nofun h
  | false =>
    cases hsync : (turn (turn s)).env.syncLine with
    | true =>
      rw [execPollWaitForSync_of_sync hov hsync] at h
      exact allowedTransition_of_waitForData (waitForDataStep_allowed rfl h)
    | false =>
      rw [execPollWaitForSync_of_noise hov hsync] at h
      refine returnNoFrame_allowed ?_ nofun h
      split <;> simp [cmdFlushRx, hw]

/-- The drain loop stays in ReadData or leaves it for InitRx, and only its completion delivers (R180, R188). -/
theorem readDataStep_allowed {s t : State} (hw : s.eng.state = .readData) (h : readDataStep s = .next t) :
    allowedTransition .readData t.eng.state t.result := by
  obtain ⟨u, hu, hab | hno | ⟨-, hc⟩⟩ := drainLoop_ends (P := fun u => u.eng.state = .readData)
    (fun u hu => by rw [turn_keeps_eng, hu]) (fun _ _ hu => hu) _ (by rw [readExpected_eng, hw]) h
  · exact raiseAbort_allowed nofun hab
  · exact returnNoFrame_allowed hu nofun hno
  · rw [complete_eng hc]
    trivial

theorem execPoll_allowed {s t : State} (h : exec (pollInstr s.eng.state) s = .next t) :
    allowedTransition s.eng.state t.eng.state t.result := by
  cases hs : s.eng.state with
  | initRx => rw [hs] at h; cases h; rfl
  | waitForSync => rw [hs] at h; exact execPollWaitForSync_allowed hs h
  | waitForData => rw [hs] at h; exact waitForDataStep_allowed hs h
  | readData => rw [hs] at h; exact readDataStep_allowed hs h

/-- Every poll is the poll of one of the four states (R140). -/
theorem eq_pollInstr_of_isPoll {i : Instr} (hp : i.isPoll = true) : ∃ a, i = pollInstr a := by
  cases i with
  | pollInitRx => exact ⟨.initRx, rfl⟩
  | pollWaitForSync => exact ⟨.waitForSync, rfl⟩
  | pollWaitForData => exact ⟨.waitForData, rfl⟩
  | pollReadData => exact ⟨.readData, rfl⟩
  | _ => cases hp

/-- The poll whose row a state value selects is the poll of that state (R101, R140). -/
theorem eq_pollInstr_of_encode {i : Instr} {a : AcqState} (hp : i.isPoll = true) (he : encode i = .bits 2 a.code.toNat) :
    i = pollInstr a := by
  obtain ⟨b, rfl⟩ := eq_pollInstr_of_isPoll hp
  have hback := encodedOperationsDecode (pollInstr b) (pollInstr_wf b)
  rw [he, decode_stateCode] at hback
  exact (Except.ok.inj hback).symm

/-- Settles O41. -/
theorem pollsFollowTheTransitionTable : Obligations.PollsFollowTheTransitionTable := by
  intro s t i hp he hx
  rw [eq_pollInstr_of_encode hp he] at hx
  exact execPoll_allowed hx

end Sys2Proof.Machine
end

section
/-! SUPPORT. The engine's header window (R160 to R172): what Classify gives, test by test; the WaitForData step, test by test; and the
header rows that store nothing. -/

namespace Sys2Proof.Machine

/-! ### Classify (R165 to R169) -/

theorem classify_blockA (l : Byte) : classify Params.preambleC Params.markBlockA l = some (classBlockA l) := rfl

theorem classify_blockB (l : Byte) : classify Params.preambleC Params.markBlockB l = some (classBlockB l) := rfl

/-- The preamble with a second byte that is neither mark is not classifiable (R169). -/
theorem classify_invalid {h1 : Byte} (h2 : Byte) (hA : h1 ≠ Params.markBlockA) (hB : h1 ≠ Params.markBlockB) :
    classify Params.preambleC h1 h2 = none := by
  rw [classify, if_pos rfl, if_neg hA, if_neg hB]

section
variable {h0 h1 h2 : Byte}

/-- Without the preamble a window that does not decode is not classifiable (R169). -/
theorem classify_of_decode_none (hC : h0 ≠ Params.preambleC) (hd : lineDecode [h0, h1, h2] = none) :
    classify h0 h1 h2 = none := by
  rw [classify, if_neg hC, hd]

/-- Without the preamble a window that decodes is Mode T, its length the first decoded byte (R168). -/
theorem classify_of_decode_some {l : Byte} {rest : List Byte} (hC : h0 ≠ Params.preambleC)
    (hd : lineDecode [h0, h1, h2] = some (l :: rest)) : classify h0 h1 h2 = some (classModeT l) := by
  rw [classify, if_neg hC, hd]

end

/-- Settles O21: a window that decodes gives two bytes, of which Classify takes the first. -/
theorem classifyFollowsItsCases : Obligations.ClassifyFollowsItsCases := by
  intro h0 h1 h2
  refine ⟨?_, ?_, ?_, classify_of_decode_none, ?_⟩
  · rintro rfl rfl
    exact classify_blockA h2
  · rintro rfl rfl
    exact classify_blockB h2
  · rintro rfl hA hB
    exact classify_invalid h2 hA hB
  · intro hC d hd
    obtain ⟨l, m, rfl⟩ := lineDecode_window_two hd
    exact ⟨l, m, rfl, classify_of_decode_some hC hd⟩

/-! ### The header read (R63, R163) -/

/-- A FIFO that is short of the window when the read comes underflows (R63). -/
theorem readHeader_of_short {s : State} (h : (turn s).env.rxFifo.length < Params.headerWindow) :
    readHeader s = .fault .fifoUnderflow := by
  rw [readHeader, rdFifo_eq_none h]

/-- The read takes the oldest three bytes and goes on as the operation they decode to (R97, R163). -/
theorem readHeader_of_window {s : State} {h0 h1 h2 : Byte} {rest : List Byte}
    (hfifo : (turn s).env.rxFifo = h0 :: h1 :: h2 :: rest) :
    readHeader s = exec (headerInstr h0 h1 h2) ((turn s).setEnv { (turn s).env with rxFifo := rest }) := by
  have hlen : Params.headerWindow ≤ (turn s).env.rxFifo.length := by
    rw [hfifo]
    exact Nat.le_add_left 3 _
  rw [← runHeader_eq_exec, readHeader, rdFifo, if_pos hlen, hfifo]
  rfl

/-! ### The WaitForData step (R160, R161, R162, R238) -/

section
variable {s : State} {t0 : Nat}

/-- The timeout comes first (R161). -/
theorem execPollWaitForData_of_timeout (hsync : s.eng.syncTime = some t0)
    (htime : s.cfg.syncTimeoutMs < (turn s).env.now - t0) :
    exec .pollWaitForData s = raiseAbort .syncTimeout (turn s) := by
  rw [execPollWaitForData_eq s t0 hsync, if_pos htime]

/-- Overflow comes before the threshold (R162, R238). -/
theorem execPollWaitForData_of_overflow (hsync : s.eng.syncTime = some t0)
    (htime : (turn s).env.now - t0 ≤ s.cfg.syncTimeoutMs) (hov : (turn (turn s)).env.overflowFlag = true) :
    exec .pollWaitForData s = raiseAbort .rxOverflow (turn (turn s)) := by
  rw [execPollWaitForData_eq s t0 hsync, if_neg (Nat.not_lt.2 htime), if_pos hov]

/-- In time and without overflow the threshold line decides whether the header is read (R160). -/
theorem execPollWaitForData_of_clear (hsync : s.eng.syncTime = some t0)
    (htime : (turn s).env.now - t0 ≤ s.cfg.syncTimeoutMs) (hov : (turn (turn s)).env.overflowFlag = false) :
    exec .pollWaitForData s =
      if inThreshold (turn (turn (turn s))) = true then readHeader (turn (turn (turn s)))
      else returnNoFrame (turn (turn (turn s))) := by
  rw [execPollWaitForData_eq s t0 hsync, if_neg (Nat.not_lt.2 htime), if_neg (Bool.eq_false_iff.1 hov)]

end

/-- Settles O28. -/
theorem waitForDataTestsInOrder : Obligations.WaitForDataTestsInOrder := by
  rintro s _ _ _ _ t0 hsync rfl rfl rfl rfl
  refine ⟨execPollWaitForData_of_timeout hsync, execPollWaitForData_of_overflow hsync, ?_, ?_, ?_⟩
  · intro htime hov hthr
    exact (execPollWaitForData_of_clear hsync htime hov).trans (if_neg (Bool.eq_false_iff.1 hthr))
  · intro htime hov hthr hshort
    rw [execPollWaitForData_of_clear hsync htime hov, if_pos hthr, readHeader_of_short hshort]
  · intro htime hov hthr h0 h1 h2 rest hfifo
    refine ⟨headerInstr h0 h1 h2, decode_headerWord h0 h1 h2, ?_⟩
    rw [execPollWaitForData_of_clear hsync htime hov, if_pos hthr, readHeader_of_window hfifo]
    rfl

/-! ### Headers that store nothing (R169, R172) -/

/-- A total above the cap aborts before anything is stored (R172). -/
theorem acceptHeader_of_gt {c : Classified} {s : State} (h : List Byte) (hc : s.cfg.bufferCap < c.expected) :
    acceptHeader c h s = raiseAbort .frameTooLarge s :=
  if_pos hc

/-- Settles O19. -/
theorem headersAboveTheCapAbort : Obligations.HeadersAboveTheCapAbort := fun _ _ h s hi hcap =>
  (exec_of_classifiesAs hi s).trans (acceptHeader_of_gt h hcap)

theorem exec_hdrCInvalid (h1 h2 : Byte) (s : State) : exec (.hdrCInvalid h1 h2) s = retryHeader s := rfl

theorem exec_hdrUnclassifiable (a b c d : Sym) (s : State) : exec (.hdrUnclassifiable a b c d) s = retryHeader s := rfl

/-- The retry emits its diagnostic and returns without a frame (R169). -/
theorem retryHeader_eq (s : State) : retryHeader s =
    .next { s with reports := s.reports ++ [.kind .unclassifiableHeader], result := .noFrame } := rfl

/-- Settles O20: both rows are the retry, whatever their operands. -/
theorem unclassifiableHeadersWriteNoRegister : Obligations.UnclassifiableHeadersWriteNoRegister :=
  ⟨fun h1 h2 s => (exec_hdrCInvalid h1 h2 s).trans (retryHeader_eq s),
    fun a b c d s => (exec_hdrUnclassifiable a b c d s).trans (retryHeader_eq s)⟩

end Sys2Proof.Machine
end

section
/-! SUPPORT. The ReadData step part by part (R180 to R188): the drain size, the overflow sample at the top of an iteration, that the loop
ends by itself, and on a quiet channel one iteration, the completion, and where the poll ends. -/

namespace Sys2Proof.Machine

/-! ### DrainSize (R183 to R185) -/

section
variable {occ rem : Nat}

theorem drainSize_of_high (h : Params.highWater < occ) : drainSize occ rem = occ := if_pos h

theorem drainSize_of_remainder (h : occ ≤ Params.highWater) (hrem : rem ≤ occ) : drainSize occ rem = rem := by
  rw [drainSize, if_neg (Nat.not_lt.2 h), if_pos hrem]

theorem drainSize_of_short (h : occ ≤ Params.highWater) (hrem : occ < rem) : drainSize occ rem = occ - 1 := by
  rw [drainSize, if_neg (Nat.not_lt.2 h), if_neg (Nat.not_le.2 hrem)]

/-- Settles O45: one lemma per priority. -/
theorem drainSizeFollowsItsPriorities : Obligations.DrainSizeFollowsItsPriorities := fun occ rem _ =>
  ⟨drainSize_of_high, drainSize_of_remainder, drainSize_of_short, drainSize_le_occ occ rem⟩

/-- A remainder that is in the FIFO is drained in full (R183). -/
theorem le_drainSize (h : rem ≤ occ) : rem ≤ drainSize occ rem :=
  Nat.le_of_not_lt fun hlt => Nat.not_lt.2 h (drainSize_lt_rem hlt)

/-- The last byte short of the remainder is withheld (R184). -/
theorem drainSize_eq_zero (h : occ ≤ 1) (hrem : occ < rem) : drainSize occ rem = 0 := by
  rw [drainSize_of_short (h.trans (by decide)) hrem, Nat.sub_eq_zero_of_le h]

/-- With nothing left to collect a drain is the high-water drain or none (R183; log 19). -/
theorem drainSize_no_remainder (h : drainSize occ 0 ≠ 0) : drainSize occ 0 = occ := by
  obtain hhigh | hlow := Nat.lt_or_ge Params.highWater occ
  · exact drainSize_of_high hhigh
  · exact absurd (drainSize_of_remainder hlow (Nat.zero_le _)) h

end

/-! ### Overflow (R180, R182, R231) -/

/-- An abort right after a turn writes `state`, the diagnostic and the result of what the turn left (R236). -/
theorem raiseAbort_turn (k : AbortKind) (s : State) : raiseAbort k (turn s) = .next { turn s with
    eng := { s.eng with state := .initRx }, reports := (turn s).reports ++ [.kind k.kind], result := .noFrame } := by
  rw [← turn_keeps_eng s]
  rfl

/-- The flag is sampled at the top of an iteration, before anything else is looked at (R182, R231). -/
theorem drainLoop_of_overflow {s : State} (h : (turn s).env.overflowFlag = true) (total fuel : Nat) :
    drainLoop total (fuel + 1) s = .next { turn s with
      eng := { s.eng with state := .initRx }, reports := (turn s).reports ++ [.kind .rxOverflow], result := .noFrame } := by
  rw [drainLoop_succ, if_pos h, raiseAbort_turn]
  rfl

/-- Settles O31. -/
theorem readDataOverflowAborts : Obligations.ReadDataOverflowAborts := fun s total hexp hov =>
  (execPollReadData_eq s total hexp).trans (drainLoop_of_overflow hov total _)

/-- What the other agents do to the transceiver depends on the transceiver alone. -/
theorem applyEvent_env_congr {s u : State} (h : s.env = u.env) (e : Event) : (applyEvent s e).env = (applyEvent u e).env := by
  cases e with
  | wake => exact h
  | consume i => simp only [applyEvent, consume_env, h]
  | _ => simp only [applyEvent, State.setEnv_env, h]

theorem applyEvents_env_congr {s u : State} (h : s.env = u.env) (es : List Event) :
    (applyEvents s es).env = (applyEvents u es).env := by
  induction es generalizing s u with
  | nil => exact h
  | cons e es ih => exact ih (applyEvent_env_congr h e)

/-- What a turn does to the transceiver depends on the transceiver and the schedule alone (R74). -/
theorem turn_env_congr {s u : State} (h : s.env = u.env) (hs : s.schedule = u.schedule) : (turn s).env = (turn u).env := by
  rw [turn, turn, hs]
  split
  · exact h
  · exact applyEvents_env_congr (by exact h) _

/-- A read of `expected` leaves the transceiver and the schedule as they are (U17). -/
theorem readExpected_env (s : State) : (readExpected s).2.env = s.env ∧ (readExpected s).2.schedule = s.schedule := by
  unfold readExpected
  split <;> exact ⟨rfl, rfl⟩

theorem execPollReadData_of_overflow {s : State} (h : (turn s).env.overflowFlag = true) :
    ∃ t, exec .pollReadData s = .next t ∧ t.eng.state = .initRx ∧ t.result = .noFrame := by
  obtain ⟨henv, hsched⟩ := readExpected_env s
  have hread : (turn (readExpected s).2).env.overflowFlag = true := by rw [turn_env_congr henv hsched, h]
  exact ⟨_, drainLoop_of_overflow hread _ _, rfl, rfl⟩

/-- Settles O42: each step's sample point has its lemma; in WaitForData the timeout, which comes before it, ends in InitRx as well. -/
theorem overflowLeadsToInitRx : Obligations.OverflowLeadsToInitRx := by
  intro s
  refine ⟨fun h => ⟨⟨_, execPollWaitForSync_of_overflow h, rfl, rfl⟩, execPollReadData_of_overflow h⟩, fun h hsync => ?_,
    drainLoop_of_overflow⟩
  obtain ⟨t0, ht0⟩ := Option.isSome_iff_exists.1 hsync
  obtain htime | htime := Nat.lt_or_ge s.cfg.syncTimeoutMs ((turn s).env.now - t0)
  · exact ⟨_, execPollWaitForData_of_timeout ht0 htime, rfl, rfl⟩
  · exact ⟨_, execPollWaitForData_of_overflow ht0 htime h, rfl, rfl⟩

/-! ### The loop ends by itself (R187; log 19) -/

theorem drained_counter (total n : Nat) (s : State) : (drained total n s).eng.counter =
    s.eng.counter + min (min n s.env.rxFifo.length) (total - s.eng.counter) := by
  rw [← List.length_take]
  rfl

theorem drained_rxFifo_length (total n : Nat) (s : State) :
    (drained total n s).env.rxFifo.length = s.env.rxFifo.length - n :=
  List.length_drop

/-- What every further iteration uses up: bytes still to collect, batches of the schedule, or, in the states no run reaches, the
surplus in the FIFO (log 19). -/
def drainMeasure (total : Nat) (s : State) : Nat :=
  (total - s.eng.counter) + s.schedule.length + min 1 s.env.rxFifo.length

theorem drainMeasure_lt_drainFuel (total : Nat) (s : State) : drainMeasure total s < drainFuel total s := by
  rw [drainMeasure, drainFuel]
  omega

/-- Without a batch left a turn brings no byte. -/
theorem turn_rxFifo_of_no_batch {s : State} (h : s.schedule.length = 0) : (turn s).env.rxFifo = s.env.rxFifo := by
  rw [turn_quiet (List.length_eq_zero_iff.1 h)]

/-- An iteration that goes on to the next uses up some of the measure (R187; log 19). -/
theorem drainMeasure_drained {total n : Nat} {s : State}
    (hn : n = drainSize (turn (turn s)).env.rxFifo.length (total - s.eng.counter)) (h0 : n ≠ 0) :
    drainMeasure total (drained total n (turn (turn (turn s)))) < drainMeasure total s := by
  have hocc : n ≤ (turn (turn s)).env.rxFifo.length := hn ▸ drainSize_le_occ _ _
  have hread := turn_fifo_length (turn (turn s))
  have hsurplus : total - s.eng.counter = 0 → n = (turn (turn s)).env.rxFifo.length := by
    intro hrem
    rw [hrem] at hn
    exact hn.trans (drainSize_no_remainder (hn ▸ h0))
  have hsample : s.schedule.length = 0 → (turn (turn s)).env.rxFifo.length = s.env.rxFifo.length := by
    intro hs
    rw [turn_rxFifo_of_no_batch (by simp [hs]), turn_rxFifo_of_no_batch hs]
  have hquiet : s.schedule.length ≤ 2 →
      (turn (turn (turn s))).env.rxFifo.length = (turn (turn s)).env.rxFifo.length := by
    intro hs
    rw [turn_rxFifo_of_no_batch (by simp; omega)]
  have hsched : (drained total n (turn (turn (turn s)))).schedule.length = s.schedule.length - 3 := by
    simp [drained, Nat.sub_sub]
  simp only [drainMeasure, hsched, drained_counter, drained_rxFifo_length, turn_keeps_eng]
  omega

/-- Fuel above the measure is not what ends the loop (R187). -/
theorem drainLoop_fuel_irrelevant {total f g : Nat} {s : State} (hf : drainMeasure total s < f)
    (hg : drainMeasure total s < g) : drainLoop total f s = drainLoop total g s := by
  induction f generalizing g s with
  | zero => exact absurd hf (Nat.not_lt_zero _)
  | succ f ih =>
    obtain ⟨g, rfl⟩ := Nat.exists_eq_succ_of_ne_zero (Nat.ne_zero_of_lt hg)
    rw [drainLoop_succ, drainLoop_succ]
    dsimp only
    split_ifs with hov hfull hnone hfilled
    · rfl
    · rfl
    · rfl
    · rfl
    · have hless := drainMeasure_drained rfl hnone
      exact ih (by omega) (by omega)

/-- Settles O36: the bound is above the measure. -/
theorem drainLoopNeverRunsOutOfFuel : Obligations.DrainLoopNeverRunsOutOfFuel := fun total _ s hle =>
  have hlt := drainMeasure_lt_drainFuel total s
  drainLoop_fuel_irrelevant (hlt.trans_le hle) hlt

/-! ### On a quiet channel: one iteration, and the completion (R180, R188) -/

section
variable {s : State} {total : Nat}

/-- On a quiet channel with the flag low every sample of an iteration is of the state it began with. -/
theorem drainLoop_quiet (hs : s.schedule = []) (hov : s.env.overflowFlag = false) (fuel : Nat) :
    drainLoop total (fuel + 1) s =
      if s.eng.counter = total then complete s
      else
        let n := drainSize s.env.rxFifo.length (total - s.eng.counter)
        if n = 0 then returnNoFrame s
        else if (drained total n s).eng.counter = total then complete (drained total n s)
        else drainLoop total fuel (drained total n s) := by
  rw [drainLoop_succ]
  simp only [turn_quiet hs, hov, Bool.false_eq_true, if_false]

/-- On a quiet channel the final drain empties the FIFO (R188). -/
theorem residualDropped_quiet (hs : s.schedule = []) : residualDropped s = s.setEnv { s.env with rxFifo := [] } := by
  rw [residualDropped, turn_quiet hs, turn_quiet hs, List.drop_length]
  split
  · exact turn_quiet hs
  · next hempty =>
    rw [turn_quiet hs, ← List.length_eq_zero_iff.1 (Nat.eq_zero_of_not_pos hempty)]
    rfl

/-- A completion whose bytes are there delivers them (R188, R189). -/
theorem complete_quiet_of_some {t0 : Nat} {out : List Byte} (hs : s.schedule = []) (hsync : s.eng.syncTime = some t0)
    (hout : frameBytes s.eng = some out) : complete s = .next { s with
      eng := { s.eng with state := .initRx }, env := { s.env with rxFifo := [] },
      result := .frameReady ⟨out, s.env.rssi, t0, s.eng.mode, s.eng.block⟩ } := by
  rw [complete_eq, hout, residualDropped_quiet hs]
  dsimp only
  rw [readSyncTime_some (by exact hsync)]
  rfl

/-- A completion whose bytes do not decode gives the frame up (R188, R193). -/
theorem complete_quiet_of_none (hs : s.schedule = []) (hout : frameBytes s.eng = none) : complete s = .next { s with
    eng := { s.eng with state := .initRx }, env := { s.env with rxFifo := [] },
    reports := s.reports ++ [.kind .lineDecodeFailure], result := .noFrame } := by
  rw [complete_eq, hout, residualDropped_quiet hs]
  rfl

theorem frameBytes_of_modeT {e : Engine} (h : e.mode = .t) : frameBytes e = lineDecode e.buf := if_pos h

theorem frameBytes_of_ne_modeT {e : Engine} (h : e.mode ≠ .t) : frameBytes e = some e.buf := if_neg h

/-- Settles O33: the first test after the overflow sample is the count (R181). -/
theorem readDataDeliversAFrameCompleteOnEntry : Obligations.ReadDataDeliversAFrameCompleteOnEntry := by
  intro s t0 out hs hov hexp hsync hother hmodeT
  have hout : frameBytes s.eng = some out := by
    by_cases hm : s.eng.mode = .t
    · rw [frameBytes_of_modeT hm, hmodeT hm]
    · rw [frameBytes_of_ne_modeT hm, hother hm]
  calc exec .pollReadData s
    _ = complete s := by rw [execPollReadData_eq s _ hexp, drainFuel, drainLoop_quiet hs hov, if_pos rfl]
    _ = _ := complete_quiet_of_some hs hsync hout

/-! ### On a quiet channel: where the poll ends (R183 to R192) -/

/-- AppendBounded of at least the remainder fills the frame (R66, R67). -/
theorem append_of_remainder {e : Engine} {bs : List Byte} (hle : e.counter ≤ total) (h : total - e.counter ≤ bs.length) :
    e.append total bs = { e with buf := e.buf ++ bs.take (total - e.counter), counter := total } := by
  rw [Engine.append, Nat.min_eq_right h, Nat.add_sub_cancel' hle]

/-- With the remainder in the FIFO the first drain fills the frame, and its surplus is dropped (R183, R185). -/
theorem execPollReadData_of_remainder (hs : s.schedule = []) (hov : s.env.overflowFlag = false)
    (hexp : s.eng.expected = some total) (hlt : s.eng.counter < total)
    (hrem : total - s.eng.counter ≤ s.env.rxFifo.length) :
    ∃ left, exec .pollReadData s = complete ((s.setEnv { s.env with rxFifo := left }).setEng { s.eng with
      buf := s.eng.buf ++ s.env.rxFifo.take (total - s.eng.counter), counter := total }) := by
  have hdrain := le_drainSize hrem
  have hocc := drainSize_le_occ s.env.rxFifo.length (total - s.eng.counter)
  rw [execPollReadData_eq s total hexp, drainFuel, drainLoop_quiet hs hov, if_neg hlt.ne]
  dsimp only
  generalize drainSize s.env.rxFifo.length (total - s.eng.counter) = n at hdrain hocc
  have heng : (drained total n s).eng = { s.eng with
      buf := s.eng.buf ++ s.env.rxFifo.take (total - s.eng.counter), counter := total } := by
    rw [drained, appendBounded_eng, State.setEnv_eng,
      append_of_remainder hlt.le (by rw [List.length_take]; omega), List.take_take, Nat.min_eq_left hdrain]
  refine ⟨s.env.rxFifo.drop n, ?_⟩
  rw [if_neg (by omega), if_pos (by rw [heng]), ← heng]
  rfl

/-- Settles O32: the frame that the first drain fills is completed. -/
theorem readDataCompletesTheFrame : Obligations.ReadDataCompletesTheFrame := by
  rintro s total t0 _ hs hov hexp hsync hlt hrem rfl
  obtain ⟨left, hx⟩ := execPollReadData_of_remainder hs hov hexp hlt hrem
  rw [hx]
  refine ⟨fun hm => ?_, fun hm d hd => ?_, fun hm hd => ?_⟩
  · exact complete_quiet_of_some hs hsync (frameBytes_of_ne_modeT hm)
  · rw [← hm]
    exact complete_quiet_of_some hs hsync ((frameBytes_of_modeT (by exact hm)).trans hd)
  · exact complete_quiet_of_none hs ((frameBytes_of_modeT (by exact hm)).trans hd)

/-- A drain short of the remainder stores all it reads (R66). -/
theorem drained_of_short {n : Nat} (h : n ≤ total - s.eng.counter) (hocc : n ≤ s.env.rxFifo.length) :
    drained total n s = { s with
      eng := { s.eng with buf := s.eng.buf ++ s.env.rxFifo.take n, counter := s.eng.counter + n },
      env := { s.env with rxFifo := s.env.rxFifo.drop n } } := by
  have hlen : (s.env.rxFifo.take n).length = n := List.length_take_of_le hocc
  rw [drained, appendBounded, State.setEnv_eng, Engine.append, hlen, Nat.min_eq_left h, List.take_of_length_le hlen.le]
  rfl

theorem drained_zero (total : Nat) (s : State) : drained total 0 s = s :=
  (drained_of_short (Nat.zero_le _) (Nat.zero_le _)).trans (by simp)

/-- With less than the remainder in the FIFO the poll drains once, and finds at most the withheld byte after it (R183, R184, R190). -/
theorem execPollReadData_of_short {n : Nat} (hs : s.schedule = []) (hov : s.env.overflowFlag = false)
    (hexp : s.eng.expected = some total) (hlt : s.eng.counter < total)
    (hrem : s.env.rxFifo.length < total - s.eng.counter)
    (hn : drainSize s.env.rxFifo.length (total - s.eng.counter) = n) (hleft : s.env.rxFifo.length - n ≤ 1) :
    exec .pollReadData s = returnNoFrame (drained total n s) := by
  have hocc : n ≤ s.env.rxFifo.length := hn ▸ drainSize_le_occ _ _
  have hcount : (drained total n s).eng.counter = s.eng.counter + n := by rw [drained_counter]; omega
  rw [execPollReadData_eq s total hexp, drainFuel, drainLoop_quiet hs hov, if_neg hlt.ne]
  dsimp only
  rw [hn]
  obtain rfl | h0 := Nat.eq_zero_or_pos n
  · rw [if_pos rfl, drained_zero]
  · have hstop : drainSize (drained total n s).env.rxFifo.length (total - (drained total n s).eng.counter) = 0 := by
      rw [drained_rxFifo_length, hcount]
      exact drainSize_eq_zero hleft (by omega)
    rw [if_neg h0.ne', if_neg (by omega), drainLoop_quiet (s := drained total n s) hs hov, if_neg (by omega)]
    exact if_pos hstop

/-- Settles O34: above the high-water mark the drain leaves nothing, otherwise the withheld byte. -/
theorem readDataWithholdsAByte : Obligations.ReadDataWithholdsAByte := by
  intro s total n hs hov hexp hlt hrem hn
  have hdrain : drainSize s.env.rxFifo.length (total - s.eng.counter) = n := by
    rw [hn]
    split
    · next hhigh => exact drainSize_of_high hhigh
    · next hlow => exact drainSize_of_short (Nat.not_lt.1 hlow) hrem
  have hocc : n ≤ s.env.rxFifo.length := hdrain ▸ drainSize_le_occ _ _
  have hleft : s.env.rxFifo.length - n ≤ 1 := by
    split at hn <;> omega
  rw [execPollReadData_of_short hs hov hexp hlt hrem hdrain hleft, drained_of_short (hocc.trans hrem.le) hocc]
  rfl

end

end Sys2Proof.Machine
end

section
/-! SUPPORT. What the transceiver counts since sync (R216; log 9), and that under WB4 the ReadData step of a frame of fixed length loses no
byte (R184, R217). -/

namespace Sys2Proof.Machine

/-! ### The count of a reception (R216; log 9) -/

theorem byteIn_of_synced {r : Reception} (h : r.synced = true) : r.byteIn = { r with received := r.received + 1 } :=
  if_pos h

/-- Once synced, no level of SYNC begins a new reception on a chip in a Fixed mode (R213). -/
theorem syncAt_of_synced {r : Reception} (h : r.synced = true) (was : Bool) (m : Byte) (v : Bool) :
    r.syncAt was (.fixed m) v = r := by
  obtain ⟨synced, received, early⟩ := r
  cases h
  simp [Reception.syncAt]

/-- A reception in progress on a chip in Fixed(m). -/
structure Receiving (m : Byte) (s : State) : Prop where
  fixed : s.env.chipLengthMode = .fixed m
  synced : s.env.reception.synced = true

/-- `u` comes after `s` by steps of the other agents: the reception goes on, and each byte that has entered the FIFO is counted. -/
structure CountedSince (m : Byte) (s u : State) : Prop where
  receiving : Receiving m u
  count : u.env.reception.received + s.env.rxFifo.length = s.env.reception.received + u.env.rxFifo.length

section
variable {m : Byte} {s : State}

theorem CountedSince.of_same {u : State} (h : Receiving m s) (hmode : u.env.chipLengthMode = s.env.chipLengthMode)
    (hrec : u.env.reception = s.env.reception) (hfifo : u.env.rxFifo = s.env.rxFifo) : CountedSince m s u :=
  ⟨⟨hmode.trans h.fixed, by rw [hrec, h.synced]⟩, by rw [hrec, hfifo]⟩

/-- A byte that enters the FIFO is counted, one that finds it full is not (R212). -/
theorem Receiving.byte (h : Receiving m s) (b : Byte) : CountedSince m s (applyEvent s (.byte b)) := by
  obtain hroom | hfull := Nat.lt_or_ge s.env.rxFifo.length Params.fifoCapacity
  · rw [applyEvent_byte_of_room b hroom, byteIn_of_synced h.synced]
    refine ⟨⟨h.fixed, h.synced⟩, ?_⟩
    simp only [State.setEnv_env, List.length_append, List.length_singleton]
    omega
  · rw [applyEvent_byte_of_full b hfull]
    exact .of_same h rfl rfl rfl

theorem Receiving.applyEvent (h : Receiving m s) (e : Event) : CountedSince m s (applyEvent s e) := by
  cases e with
  | byte b => exact h.byte b
  | sync v => exact .of_same h rfl (by simp [Machine.applyEvent, h.fixed, syncAt_of_synced h.synced]) rfl
  | consume i => exact .of_same h (congrArg _ (consume_env i s)) (congrArg _ (consume_env i s)) (congrArg _ (consume_env i s))
  | _ => exact .of_same h rfl rfl rfl

theorem Receiving.applyEvents (h : Receiving m s) (es : List Event) : CountedSince m s (applyEvents s es) := by
  induction es generalizing s with
  | nil => exact .of_same h rfl rfl rfl
  | cons e es ih =>
    have hone := h.applyEvent e
    have hrest := ih hone.receiving
    refine ⟨hrest.receiving, ?_⟩
    have h1 := hone.count
    have h2 := hrest.count
    simp only [Machine.applyEvents, List.foldl_cons] at h2 ⊢
    omega

theorem Receiving.turn (h : Receiving m s) : CountedSince m s (turn s) := by
  unfold Machine.turn
  split
  · exact .of_same h rfl rfl rfl
  · next batch rest _ =>
    obtain ⟨hreceiving, hcount⟩ := Receiving.applyEvents (s := s.setSchedule rest) ⟨h.fixed, h.synced⟩ batch
    exact ⟨hreceiving, hcount⟩

end

/-! ### The byte stream loses nothing (R61, R212) -/

/-- With room for all that comes a turn loses no byte of the stream (R212). -/
theorem byteStream_turn_of_room {s : State} (h : (byteStream s).length ≤ Params.fifoCapacity) :
    byteStream (turn s) = byteStream s := by
  have hroom : (arrivals (s.schedule.headD [])).length ≤ Params.fifoCapacity - s.env.rxFifo.length := by
    rw [byteStream, bytesToCome_turn s, List.length_append, List.length_append] at h
    omega
  rw [byteStream, byteStream, turn_rxFifo, bytesToCome_turn s, List.take_of_length_le hroom, List.append_assoc]

/-- A read takes its bytes off the stream (R62). -/
theorem byteStream_take (n : Nat) (s : State) : byteStream s =
    s.env.rxFifo.take n ++ byteStream (s.setEnv { s.env with rxFifo := s.env.rxFifo.drop n }) := by
  rw [byteStream, ← List.take_append_drop n s.env.rxFifo, List.append_assoc, List.take_append_drop]
  rfl

theorem byteStream_drop_length_le (n : Nat) (s : State) :
    (byteStream (s.setEnv { s.env with rxFifo := s.env.rxFifo.drop n })).length ≤ (byteStream s).length := by
  rw [byteStream_take n s, List.length_append]
  exact Nat.le_add_left _ _

/-- A drain that the total has room for stores all it reads (R66). -/
theorem drained_buf_of_room {total n : Nat} {s : State} (h : s.eng.counter + s.env.rxFifo.length ≤ total) :
    (drained total n s).eng.buf = s.eng.buf ++ s.env.rxFifo.take n := by
  have hlen : (s.env.rxFifo.take n).length ≤ total - s.eng.counter := by
    rw [List.length_take]
    omega
  rw [drained, appendBounded_eng, State.setEnv_eng, append_eq_of_stored, List.take_of_length_le hlen]

/-! ### The ReadData step under WB4 (R184, R217) -/

/-- `u` comes after `s` in the ReadData step with the chip in Fixed(m): all that the engine holds is counted since sync, the FIFO can hold
all that comes, and, unless more than `m` bytes are counted, none is lost. -/
structure NoneLost (m : Byte) (s u : State) : Prop where
  receiving : Receiving m u
  held : u.eng.counter + u.env.rxFifo.length ≤ u.env.reception.received
  room : (byteStream u).length ≤ Params.fifoCapacity
  kept : u.env.reception.received ≤ m.toNat → u.eng.buf ++ byteStream u = s.eng.buf ++ byteStream s

section
variable {m : Byte} {s u : State}

theorem NoneLost.turn (h : NoneLost m s u) : NoneLost m s (turn u) := by
  obtain ⟨hreceiving, hheld, hroom, hkept⟩ := h
  obtain ⟨hreceiving', hcount⟩ := hreceiving.turn
  have hfifo := turn_fifo_length u
  have hstream := byteStream_turn_of_room hroom
  refine ⟨hreceiving', ?_, hstream ▸ hroom, fun hle => ?_⟩
  · rw [turn_keeps_eng]
    omega
  · rw [turn_keeps_eng, hstream]
    exact hkept (by omega)

/-- Under WB4 no drain has a surplus: what the engine holds fits the total (R184). -/
theorem NoneLost.drained (h : NoneLost m s u) (n : Nat) : NoneLost m s (drained m.toNat n u) := by
  obtain ⟨hreceiving, hheld, hroom, hkept⟩ := h
  refine ⟨⟨hreceiving.fixed, hreceiving.synced⟩, ?_, (byteStream_drop_length_le n u).trans hroom, fun hle => ?_⟩
  · change _ ≤ u.env.reception.received
    rw [drained_counter, drained_rxFifo_length]
    omega
  · have hcounted : u.env.reception.received ≤ m.toNat := hle
    calc (Machine.drained m.toNat n u).eng.buf ++ byteStream (Machine.drained m.toNat n u)
      _ = u.eng.buf ++ (u.env.rxFifo.take n ++ byteStream (Machine.drained m.toNat n u)) := by
        rw [drained_buf_of_room (hheld.trans hcounted), List.append_assoc]
      _ = u.eng.buf ++ byteStream u := congrArg _ (byteStream_take n u).symm
      _ = s.eng.buf ++ byteStream s := hkept hcounted

/-- With the count at the total any residual byte is one too many for WB4 (R188, R217). -/
theorem NoneLost.residualDropped (h : NoneLost m s u) (hfull : u.eng.counter = m.toNat) :
    NoneLost m s (residualDropped u) := by
  unfold Machine.residualDropped
  refine NoneLost.turn ?_
  split
  · next hpos =>
    obtain ⟨hreceiving, hheld, hroom, -⟩ := h.turn.turn
    have hfifo := turn_fifo_length (Machine.turn u)
    rw [turn_keeps_eng, turn_keeps_eng] at hheld
    refine ⟨⟨hreceiving.fixed, hreceiving.synced⟩, ?_, (byteStream_drop_length_le _ _).trans hroom, fun hle => ?_⟩
    · simp only [State.setEnv_eng, State.setEnv_env, turn_keeps_eng, List.length_drop]
      omega
    · simp only [State.setEnv_env] at hle
      omega
  · exact h.turn

theorem readSyncTime_schedule (s : State) : (readSyncTime s).2.schedule = s.schedule := by
  unfold readSyncTime
  split <;> rfl

/-- A completion leaves the transceiver and the schedule as the final drain and the sample of RSSI left them (R188, R236). -/
theorem complete_env {s t : State} (h : complete s = .next t) :
    t.env = (Machine.residualDropped s).env ∧ t.schedule = (Machine.residualDropped s).schedule := by
  rw [complete_eq] at h
  split at h
  · rw [raiseAbort_next h]
    exact ⟨rfl, rfl⟩
  · cases h
    exact ⟨readSyncTime_env _, readSyncTime_schedule _⟩

/-- Where the ReadData step ends, nothing is lost under WB4 up to there, and the end itself takes no byte (R180, R188). -/
theorem execPollReadData_noneLost {t : State} (h : NoneLost m s s) (hexp : s.eng.expected = some m.toNat)
    (hx : exec .pollReadData s = .next t) :
    ∃ u, NoneLost m s u ∧ t.env = u.env ∧ t.schedule = u.schedule ∧ t.eng.buf = u.eng.buf := by
  rw [execPollReadData_eq s _ hexp] at hx
  obtain ⟨u, hu, hab | hno | ⟨hfull, hc⟩⟩ := drainLoop_ends (P := NoneLost m s) (fun _ h => h.turn)
    (fun n _ h => h.drained n) _ h hx
  · rw [raiseAbort_next hab]
    exact ⟨u, hu, rfl, rfl, rfl⟩
  · rw [returnNoFrame_next hno]
    exact ⟨u, hu, rfl, rfl, rfl⟩
  · obtain ⟨henv, hsched⟩ := complete_env hc
    refine ⟨_, hu.residualDropped hfull, henv, hsched, ?_⟩
    rw [complete_eng hc, residualDropped_eng]
    rfl

end

/-- Settles O40: at the end of the poll WB4 bounds the count, so nothing was lost before. -/
theorem fixedLengthFramesLoseNoByteUnderWB4 : Obligations.FixedLengthFramesLoseNoByteUnderWB4 := by
  intro s t m hexp hmode _ hheld hroom hx hwb4
  obtain ⟨hsynced, hcount⟩ := hheld
  have hstart : NoneLost m s s := ⟨⟨hmode, hsynced⟩, hcount, by rwa [byteStream, List.length_append], fun _ => rfl⟩
  obtain ⟨u, hu, henv, hsched, hbuf⟩ := execPollReadData_noneLost hstart hexp hx
  have hbound : u.env.reception.received ≤ m.toNat := henv ▸ hwb4 m (henv ▸ hu.receiving.fixed)
  have hstream : byteStream t = byteStream u := by rw [byteStream, byteStream, bytesToCome, bytesToCome, henv, hsched]
  calc t.eng.buf ++ t.env.rxFifo ++ bytesToCome t
    _ = t.eng.buf ++ byteStream t := List.append_assoc _ _ _
    _ = u.eng.buf ++ byteStream u := by rw [hbuf, hstream]
    _ = s.eng.buf ++ byteStream s := hu.kept hbound
    _ = s.eng.buf ++ s.env.rxFifo ++ bytesToCome s := (List.append_assoc _ _ _).symm

end Sys2Proof.Machine
end

section
/-! SUPPORT. The ReadData step reads neither SYNC nor THRESHOLD (R209, R241): every operation it is made of commutes with other levels of
the two lines. -/

namespace Sys2Proof.Machine

/-- The two lines that ReadData does not read, and the count of a reception, which moves with SYNC (R209; log 9). -/
structure Lines where
  sync : Bool
  threshold : Bool
  reception : Reception

/-- The state with other levels of the two lines. -/
def State.withLines (l : Lines) (s : State) : State :=
  s.setEnv { s.env with syncLine := l.sync, thresholdLine := l.threshold, reception := l.reception }

/-- The outcome whose next state has other levels of the two lines. -/
def outcomeWithLines (l : Lines) : Host.Outcome State Fault Refusal → Host.Outcome State Fault Refusal
  | .next t => .next (t.withLines l)
  | .fault f => .fault f
  | .refused r => .refused r

section
variable (l : Lines) (s : State)

@[simp] theorem withLines_eng : (s.withLines l).eng = s.eng := rfl
@[simp] theorem withLines_schedule : (s.withLines l).schedule = s.schedule := rfl
@[simp] theorem withLines_rxFifo : (s.withLines l).env.rxFifo = s.env.rxFifo := rfl
@[simp] theorem withLines_overflowFlag : (s.withLines l).env.overflowFlag = s.env.overflowFlag := rfl
@[simp] theorem withLines_rssi : (s.withLines l).env.rssi = s.env.rssi := rfl

/-! ### The other agents (R74, R213) -/

/-- An event that moves a line moves it from any level; no other looks at one (R213). -/
theorem applyEvent_withLines (e : Event) : ∃ l', applyEvent (s.withLines l) e = (applyEvent s e).withLines l' := by
  cases e with
  | byte b =>
    obtain hroom | hfull := Nat.lt_or_ge s.env.rxFifo.length Params.fifoCapacity
    · exact ⟨⟨l.sync, l.threshold, l.reception.byteIn⟩, by
        rw [applyEvent_byte_of_room b hroom, applyEvent_byte_of_room b (by exact hroom)]; rfl⟩
    · exact ⟨l, by rw [applyEvent_byte_of_full b hfull, applyEvent_byte_of_full b (by exact hfull)]; rfl⟩
  | sync v => exact ⟨⟨v, l.threshold, l.reception.syncAt l.sync s.env.chipLengthMode v⟩, rfl⟩
  | threshold v => exact ⟨⟨l.sync, v, l.reception⟩, rfl⟩
  | consume i =>
    refine ⟨l, ?_⟩
    simp only [applyEvent, consume, State.withLines, State.setEnv_plat]
    split
    · rfl
    · cases i <;> rfl
  | _ => exact ⟨l, rfl⟩

theorem applyEvents_withLines (es : List Event) :
    ∃ l', applyEvents (s.withLines l) es = (applyEvents s es).withLines l' := by
  induction es generalizing l s with
  | nil => exact ⟨l, rfl⟩
  | cons e es ih =>
    obtain ⟨l1, h1⟩ := applyEvent_withLines l s e
    obtain ⟨l2, h2⟩ := ih l1 (applyEvent s e)
    exact ⟨l2, by rw [← h1] at h2; exact h2⟩

theorem turn_withLines : ∃ l', turn (s.withLines l) = (turn s).withLines l' := by
  unfold turn
  rw [withLines_schedule]
  split
  · exact ⟨l, rfl⟩
  · next batch rest _ => exact applyEvents_withLines l (s.setSchedule rest) batch

/-! ### The operations of the ReadData step (R180, R188) -/

theorem readSyncTime_withLines :
    readSyncTime (s.withLines l) = ((readSyncTime s).1, (readSyncTime s).2.withLines l) := by
  unfold readSyncTime
  rw [withLines_eng]
  split <;> rfl

theorem readExpected_withLines :
    readExpected (s.withLines l) = ((readExpected s).1, (readExpected s).2.withLines l) := by
  unfold readExpected
  rw [withLines_eng]
  split <;> rfl

theorem residualDropped_withLines : ∃ l', residualDropped (s.withLines l) = (residualDropped s).withLines l' := by
  obtain ⟨l1, h1⟩ := turn_withLines l s
  obtain ⟨l2, h2⟩ := turn_withLines l1 (turn s)
  simp only [residualDropped, h1, h2, withLines_rxFifo]
  split
  · exact turn_withLines l2 ((turn (turn s)).setEnv { (turn (turn s)).env with
      rxFifo := (turn (turn s)).env.rxFifo.drop (turn s).env.rxFifo.length })
  · exact turn_withLines l1 _

theorem complete_withLines : ∃ l', complete (s.withLines l) = outcomeWithLines l' (complete s) := by
  obtain ⟨l', h⟩ := residualDropped_withLines l s
  refine ⟨l', ?_⟩
  rw [complete_eq, complete_eq, withLines_eng, h, readSyncTime_withLines]
  split <;> rfl

/-- One iteration takes the same branch with other levels of the lines (R180). -/
theorem drainLoop_withLines (total fuel : Nat) :
    ∃ l', drainLoop total fuel (s.withLines l) = outcomeWithLines l' (drainLoop total fuel s) := by
  induction fuel generalizing l s with
  | zero => exact ⟨l, rfl⟩
  | succ fuel ih =>
    obtain ⟨l1, h1⟩ := turn_withLines l s
    obtain ⟨l2, h2⟩ := turn_withLines l1 (turn s)
    obtain ⟨l3, h3⟩ := turn_withLines l2 (turn (turn s))
    have hdrained : ∀ n, drained total n ((turn (turn (turn s))).withLines l3) =
      (drained total n (turn (turn (turn s)))).withLines l3 := fun _ => rfl
    simp only [drainLoop_succ, h1, h2, h3, hdrained, withLines_eng, withLines_rxFifo, withLines_overflowFlag]
    split_ifs
    · exact ⟨l1, rfl⟩
    · exact complete_withLines l1 _
    · exact ⟨l2, rfl⟩
    · exact complete_withLines l3 _
    · exact ih l3 _

theorem execPollReadData_withLines :
    ∃ l', exec .pollReadData (s.withLines l) = outcomeWithLines l' (exec .pollReadData s) := by
  simp only [exec, execPollReadData, readDataStep, readExpected_withLines]
  exact drainLoop_withLines l (readExpected s).2 _ _

end

/-- Settles O39: other levels of the two lines are all that the next state differs in. -/
theorem readDataIgnoresSyncAndThreshold : Obligations.ReadDataIgnoresSyncAndThreshold := by
  intro s t v w hx
  obtain ⟨l, h⟩ := execPollReadData_withLines ⟨v, w, s.env.reception⟩ s
  rw [hx] at h
  exact ⟨t.withLines l, h, rfl, rfl, rfl, rfl⟩

end Sys2Proof.Machine
end

section
/-! SUPPORT. The books of a step, kept from any state on (R212, R215, R216): which of the scheduled events are left, how long the others
took, how many bytes the receive FIFO can hold at most, and, on a chip that keeps WB2, that the overflow flag stays low while all the bytes
that come fit the FIFO. Every part of a poll keeps them. -/

namespace Sys2Proof.Machine

/-! ### Events, whole or cut by the end of the host's wait (R251) -/

/-- `e` is the scheduled event `f`, or what the end of the host's wait has left of it. -/
def Event.restOf (e f : Event) : Prop := e.arrives = f.arrives ∧ e.elapses ≤ f.elapses

theorem Event.restOf_self (e : Event) : e.restOf e := ⟨rfl, le_rfl⟩

theorem arrivals_of_restOf {es fs : List Event} (h : List.Forall₂ Event.restOf es fs) : arrivals es = arrivals fs := by
  induction h with
  | nil => rfl
  | cons hone _ ih => rw [arrivals_cons, arrivals_cons, hone.1, ih]

theorem elapsed_of_restOf {es fs : List Event} (h : List.Forall₂ Event.restOf es fs) : elapsed es ≤ elapsed fs := by
  induction h with
  | nil => exact le_rfl
  | cons hone _ ih => rw [elapsed_cons, elapsed_cons]; exact Nat.add_le_add hone.2 ih

/-- Only a step of the clock takes time (R215). -/
theorem eq_time_of_elapses {e : Event} (h : 0 < e.elapses) : ∃ d, e = .time d := by
  cases e with
  | time d => exact ⟨d, rfl⟩
  | _ => cases h

/-! ### One event (R212, R214, R257) -/

/-- The overflow reports on the diagnostic channel (R230). -/
def overflowReports (s : State) : Nat := s.reports.count (.kind .rxOverflow)

theorem overflowReports_emit {r : Report} (h : r ≠ .kind .rxOverflow) (s : State) :
    overflowReports (emit r s) = overflowReports s := by
  simp [overflowReports, h]

/-- The consumer reports an unhandled frame at most (R257). -/
theorem overflowReports_applyEvent (e : Event) (s : State) : overflowReports (applyEvent s e) = overflowReports s := by
  cases e with
  | consume i =>
    simp only [applyEvent, consume]
    split
    · rfl
    · cases i
      · exact overflowReports_emit (r := .unhandled) nofun _
      · rfl
  | _ => rfl

/-- With room for what it brings, an event that does not move the flag leaves it low (R212, R214). -/
theorem applyEvent_overflowFlag {e : Event} {s : State} (hmove : e.movesOverflow = false)
    (hroom : s.env.rxFifo.length + e.arrives.length ≤ Params.fifoCapacity) (hlow : s.env.overflowFlag = false) :
    (applyEvent s e).env.overflowFlag = false := by
  cases e with
  | byte b =>
    rw [applyEvent_byte_of_room b (by exact hroom)]
    exact hlow
  | overflow v => cases hmove
  | consume i => rw [applyEvent, consume_env, hlow]
  | _ => exact hlow

theorem applyEvent_rxFifo_length_le (s : State) (e : Event) :
    (applyEvent s e).env.rxFifo.length ≤ s.env.rxFifo.length + e.arrives.length := by
  rw [applyEvent_rxFifo, List.length_append, List.length_take]
  omega

/-! ### The books -/

/-- `u` comes after `s`, and of the events that were scheduled in `s` those of `left` are still to come. -/
structure Accounted (s : State) (left : List Event) (u : State) : Prop where
  /-- What is left is the end of the schedule, but for what the end of a wait has cut off. -/
  rest : ∃ taken rest, s.schedule.flatten = taken ++ rest ∧ List.Forall₂ Event.restOf left rest
  /-- WB2 of what is left. -/
  still : ∀ e ∈ left, e.movesOverflow = false
  /-- The time that the events have no more to take has passed. -/
  time : s.env.now + elapsed s.schedule.flatten ≤ u.env.now + elapsed left
  /-- No byte is in the FIFO or to come that was not in `s`. -/
  stream : u.env.rxFifo.length + (arrivals left).length ≤ (byteStream s).length
  /-- If the FIFO can hold at once all but what is left, a flag that was low is low, and none has been reported. -/
  calm : s.env.overflowFlag = false → (byteStream s).length ≤ Params.fifoCapacity + (arrivals left).length →
    u.env.overflowFlag = false ∧ overflowReports u = overflowReports s

/-- The books from `s` to `u`, where what is left is the schedule of `u`. -/
abbrev AccountedSince (s u : State) : Prop := Accounted s u.schedule.flatten u

/-- No scheduled event moves the overflow flag at will: the part of WB2 that speaks of the schedule (R216). -/
def flagLeftAlone (s : State) : Prop := ∀ e ∈ s.schedule.flatten, e.movesOverflow = false

theorem WB2.flagLeftAlone {s : State} (h : WB2 s) : flagLeftAlone s := by
  intro e he
  obtain ⟨batch, hb, heb⟩ := List.mem_flatten.1 he
  exact h.2 batch hb e heb

theorem AccountedSince.refl {s : State} (h : flagLeftAlone s) : AccountedSince s s where
  rest := ⟨[], _, rfl, List.forall₂_same.2 fun e _ => e.restOf_self⟩
  still := h
  time := le_rfl
  stream := by rw [← bytesToCome_eq_arrivals, byteStream, List.length_append]
  calm := fun hlow _ => ⟨hlow, rfl⟩

section
variable {s u v : State}

/-! ### What takes events (R74, R250) -/

section
variable {e : Event} {es left : List Event}

/-- An event is taken. -/
theorem Accounted.event (h : Accounted s (e :: es) u) : Accounted s es (applyEvent u e) := by
  obtain ⟨⟨taken, rest, hsched, hrest⟩, hstill, htime, hstream, hcalm⟩ := h
  obtain ⟨f, rest', -, hes, rfl⟩ := List.forall₂_cons_left_iff.1 hrest
  rw [elapsed_cons] at htime
  rw [arrivals_cons, List.length_append] at hstream hcalm
  have hfifo := applyEvent_rxFifo_length_le u e
  refine ⟨⟨taken ++ [f], rest', by simp [hsched], hes⟩, fun x hx => hstill x (List.mem_cons_of_mem _ hx), ?_, by omega,
    fun hs hfits => ?_⟩
  · rw [applyEvent_now]
    omega
  · obtain ⟨hlow, hreports⟩ := hcalm hs (by omega)
    exact ⟨applyEvent_overflowFlag (hstill e List.mem_cons_self) (by omega) hlow,
      (overflowReports_applyEvent e u).trans hreports⟩

theorem Accounted.events (es : List Event) (h : Accounted s (es ++ left) u) : Accounted s left (applyEvents u es) := by
  induction es generalizing u with
  | nil => exact h
  | cons e es ih => exact ih h.event

/-- A step of the clock is cut by the end of the host's wait (R251). -/
theorem Accounted.cut {n : Nat} (h : Accounted s (e :: es) u) (h0 : 0 < n) (hn : n ≤ e.elapses) :
    Accounted s (.time (e.elapses - n) :: es) (applyEvent u (.time n)) := by
  obtain ⟨d, rfl⟩ := eq_time_of_elapses (h0.trans_le hn)
  obtain ⟨⟨taken, rest, hsched, hrest⟩, hstill, htime, hstream, hcalm⟩ := h
  obtain ⟨f, rest', ⟨hbytes, hle⟩, hes, rfl⟩ := List.forall₂_cons_left_iff.1 hrest
  refine ⟨⟨taken, f :: rest', hsched, .cons ⟨hbytes, (Nat.sub_le d n).trans hle⟩ hes⟩, ?_, ?_, hstream, hcalm⟩
  · intro x hx
    obtain rfl | hx := List.mem_cons.1 hx
    · rfl
    · exact hstill x (List.mem_cons_of_mem _ hx)
  · simp only [elapsed_cons, Event.elapses] at htime hn ⊢
    rw [applyEvent_now, Event.elapses]
    omega

/-- What takes no event: a write that stores no byte in the FIFO, does not raise the flag, and reports no overflow while it is low. -/
theorem Accounted.write (h : Accounted s left u) (hnow : u.env.now ≤ v.env.now)
    (hfifo : v.env.rxFifo.length ≤ u.env.rxFifo.length) (hflag : u.env.overflowFlag = false → v.env.overflowFlag = false)
    (hreports : u.env.overflowFlag = false → overflowReports v = overflowReports u) : Accounted s left v where
  rest := h.rest
  still := h.still
  time := h.time.trans (Nat.add_le_add_right hnow _)
  stream := (Nat.add_le_add_right hfifo _).trans h.stream
  calm := fun hs hfits => by
    obtain ⟨hlow, hcount⟩ := h.calm hs hfits
    exact ⟨hflag hlow, (hreports hlow).trans hcount⟩

/-- The host's wait takes events, or a part of one (R251). -/
theorem Accounted.waitBatch (n : Nat) (h : Accounted s es u) :
    Accounted s (waitBatch n es u).2.1 (waitBatch n es u).2.2 := by
  induction es generalizing n u with
  | nil => rwa [waitBatch_nil]
  | cons e es ih =>
    obtain rfl | h0 := Nat.eq_zero_or_pos n
    · rwa [waitBatch_zero]
    · by_cases hw : e = .wake
      · subst hw
        rw [waitBatch_wake h0]
        exact h.event
      · obtain hlt | hge := Nat.lt_or_ge e.elapses n
        · rw [waitBatch_of_lt hw hlt]
          exact ih _ h.event
        · rw [waitBatch_of_ge hw h0 hge]
          exact h.cut h0 hge

end

/-- A turn takes the events of its batch (R74). -/
theorem AccountedSince.turn (h : AccountedSince s u) : AccountedSince s (turn u) := by
  cases hsched : u.schedule with
  | nil => rwa [turn_quiet hsched]
  | cons batch rest =>
    rw [AccountedSince, hsched] at h
    have hbatch : Accounted s (batch ++ rest.flatten) (u.setSchedule rest) := h.write le_rfl le_rfl id fun _ => rfl
    rw [AccountedSince, turn_schedule, hsched, Machine.turn, hsched]
    exact hbatch.events batch

/-- The host's wait takes events up to its end, and then the rest of its time passes (R250, R251). -/
theorem AccountedSince.awaitPoll (h : AccountedSince s u) : AccountedSince s (awaitPoll u) := by
  cases hwake : u.plat.wakeFlag with
  | true =>
    rw [awaitPoll_of_pending hwake]
    exact h.write le_rfl le_rfl id fun _ => rfl
  | false =>
    obtain ⟨l, hl, hwait⟩ := waitSchedule_eq (hostWait u) u.schedule u
    have htaken := Accounted.waitBatch (hostWait u) h
    rw [← hl] at htaken
    rw [awaitPoll_of_down hwake, hwait]
    exact htaken.write (Nat.le_add_right _ _) le_rfl id fun _ => rfl

/-! ### The writes an operation is made of -/

/-- Writes of registers, results and the host's side, and reports of something else than an overflow. -/
theorem AccountedSince.of_same (h : AccountedSince s u) (henv : v.env = u.env) (hsched : v.schedule = u.schedule)
    (hreports : overflowReports v = overflowReports u) : AccountedSince s v := by
  rw [AccountedSince, hsched]
  exact h.write (by rw [henv]) (by rw [henv]) (by rw [henv]; exact id) fun _ => hreports

/-- Writes of the transceiver. -/
theorem AccountedSince.setEnv (h : AccountedSince s u) {e : Env} (hnow : e.now = u.env.now)
    (hfifo : e.rxFifo.length ≤ u.env.rxFifo.length) (hflag : u.env.overflowFlag = false → e.overflowFlag = false) :
    AccountedSince s (u.setEnv e) :=
  h.write hnow.ge hfifo hflag fun _ => rfl

theorem AccountedSince.setEng (h : AccountedSince s u) (e : Engine) : AccountedSince s (u.setEng e) := h.of_same rfl rfl rfl

theorem AccountedSince.emit (h : AccountedSince s u) {r : Report} (hr : r ≠ .kind .rxOverflow) :
    AccountedSince s (emit r u) :=
  h.of_same rfl rfl (overflowReports_emit hr u)

/-- Bytes taken from the receive FIFO (R62). -/
theorem AccountedSince.dropFifo (h : AccountedSince s u) (n : Nat) :
    AccountedSince s (u.setEnv { u.env with rxFifo := u.env.rxFifo.drop n }) :=
  h.setEnv rfl (by simp) id

/-! ### The shared operations (R202 to R208, R237) -/

/-- A flush can only lower the flag (R202). -/
theorem AccountedSince.cmdFlushRx (h : AccountedSince s u) : AccountedSince s (cmdFlushRx u) :=
  h.turn.setEnv rfl (Nat.zero_le _) fun hlow => by simp [hlow]

theorem AccountedSince.cmdFlushTx (h : AccountedSince s u) : AccountedSince s (cmdFlushTx u) := h.turn.setEnv rfl le_rfl id

theorem AccountedSince.cmdSetThreshold (h : AccountedSince s u) (n : Nat) : AccountedSince s (cmdSetThreshold n u) :=
  h.turn.setEnv rfl le_rfl id

theorem AccountedSince.cmdSetLengthMode (h : AccountedSince s u) (m : ChipLengthMode) :
    AccountedSince s (cmdSetLengthMode m u) :=
  h.turn.setEnv rfl le_rfl id

theorem AccountedSince.cmdEnterRx (h : AccountedSince s u) : AccountedSince s (cmdEnterRx u) := h.turn.setEnv rfl le_rfl id

theorem AccountedSince.confirmRx (h : AccountedSince s u) (n : Nat) : AccountedSince s (confirmRx n u) := by
  induction n generalizing u with
  | zero => exact h.emit nofun
  | succ n ih =>
    rw [Machine.confirmRx]
    split
    · exact h.turn
    · exact ih h.turn

/-- The recovery from its flush on (D41, R143). -/
theorem AccountedSince.recover_of_flushed (h : AccountedSince s (Machine.cmdFlushRx u)) : AccountedSince s (recover u) :=
  ((((h.cmdFlushTx.cmdSetThreshold _).cmdSetLengthMode _).cmdEnterRx).confirmRx _).setEng _

theorem AccountedSince.rdFifo {n : Nat} {bytes : List Byte} (h : AccountedSince s u) (hr : rdFifo n u = some (bytes, v)) :
    AccountedSince s v := by
  obtain ⟨-, -, rfl⟩ := rdFifo_spec hr
  exact h.turn.dropFifo n

theorem AccountedSince.drained (h : AccountedSince s u) (total n : Nat) : AccountedSince s (drained total n u) :=
  (h.dropFifo n).setEng _

theorem AccountedSince.residualDropped (h : AccountedSince s u) : AccountedSince s (residualDropped u) := by
  unfold Machine.residualDropped
  split
  · exact (h.turn.turn.dropFifo _).turn
  · exact h.turn.turn

theorem AccountedSince.programLength (h : AccountedSince s u) (total : Nat) : AccountedSince s (programLength total u) := by
  by_cases hf : total < u.cfg.fixedLenCeiling.val
  · rw [programLength_of_lt hf]
    exact ((h.cmdSetLengthMode _).setEng _).cmdSetThreshold _
  · rw [programLength_of_ge hf]
    exact h

theorem AccountedSince.readSyncTime (h : AccountedSince s u) : AccountedSince s (readSyncTime u).2 := by
  unfold Machine.readSyncTime
  split <;> exact h.of_same rfl rfl rfl

theorem AccountedSince.readExpected (h : AccountedSince s u) : AccountedSince s (readExpected u).2 := by
  unfold Machine.readExpected
  split <;> exact h.of_same rfl rfl rfl

/-! ### Ends of a poll -/

theorem AccountedSince.returnNoFrame (h : AccountedSince s u) (hn : returnNoFrame u = .next v) : AccountedSince s v := by
  rw [returnNoFrame_next hn]
  exact h.of_same rfl rfl rfl

/-- An overflow is reported only with the flag up (R182, R236). -/
theorem AccountedSince.raiseAbort {k : AbortKind} (h : AccountedSince s u) (hn : raiseAbort k u = .next v)
    (hup : k = .rxOverflow → u.env.overflowFlag = true) : AccountedSince s v := by
  rw [raiseAbort_next hn]
  refine h.write le_rfl le_rfl id fun hlow => overflowReports_emit ?_ u
  cases k with
  | rxOverflow => rw [hup rfl] at hlow; cases hlow
  | _ => nofun

theorem AccountedSince.complete (h : AccountedSince s u) (hn : complete u = .next v) : AccountedSince s v := by
  rw [complete_eq] at hn
  split at hn
  · exact h.residualDropped.raiseAbort hn nofun
  · cases hn
    exact h.residualDropped.readSyncTime.of_same rfl rfl rfl

/-! ### Every poll -/

theorem AccountedSince.execHeader {i : Instr} (h : AccountedSince s u) (hh : i.isHeader = true)
    (hx : exec i u = .next v) : AccountedSince s v := by
  obtain ⟨c, hd, -, heq⟩ | heq := exec_header hh <;> rw [heq] at hx
  · obtain hab | rfl := acceptHeader_next hx
    · exact h.raiseAbort hab nofun
    · have hstored : AccountedSince s (headerStored c hd u) := (h.setEng _).setEng _
      exact (hstored.programLength c.expected).of_same rfl rfl rfl
  · exact (h.emit (r := .kind .unclassifiableHeader) nofun).returnNoFrame hx

theorem AccountedSince.readHeader (h : AccountedSince s u) (hn : readHeader u = .next v) : AccountedSince s v := by
  unfold Machine.readHeader at hn
  split at hn
  · next h0 h1 h2 w hr =>
    rw [runHeader_eq_exec] at hn
    exact (h.rdFifo hr).execHeader (headerInstr_isHeader h0 h1 h2) hn
  · cases hn

theorem AccountedSince.waitForDataStep (h : AccountedSince s u) (hn : waitForDataStep u = .next v) :
    AccountedSince s v := by
  have hread := h.readSyncTime
  simp only [Machine.waitForDataStep] at hn
  split_ifs at hn with _ hup
  · exact hread.turn.raiseAbort hn nofun
  · exact hread.turn.turn.raiseAbort hn (fun _ => hup)
  · exact hread.turn.turn.turn.readHeader hn
  · exact hread.turn.turn.turn.returnNoFrame hn

theorem AccountedSince.execPollWaitForSync (h : AccountedSince s u) (hn : execPollWaitForSync u = .next v) :
    AccountedSince s v := by
  have h3 := h.turn.turn.turn
  simp only [Machine.execPollWaitForSync] at hn
  split_ifs at hn with hup
  · exact h.turn.raiseAbort hn (fun _ => hup)
  · exact (h3.setEng _).waitForDataStep hn
  · exact h3.cmdFlushRx.returnNoFrame hn
  · exact h3.returnNoFrame hn

theorem AccountedSince.drainLoop {total : Nat} (fuel : Nat) (h : AccountedSince s u)
    (hn : drainLoop total fuel u = .next v) : AccountedSince s v := by
  induction fuel generalizing u with
  | zero => exact h.returnNoFrame hn
  | succ fuel ih =>
    have hdrained := fun n => h.turn.turn.turn.drained total n
    rw [drainLoop_succ] at hn
    dsimp only at hn
    split_ifs at hn with hup
    · exact h.turn.raiseAbort hn (fun _ => hup)
    · exact h.turn.complete hn
    · exact h.turn.turn.returnNoFrame hn
    · exact (hdrained _).complete hn
    · exact ih (hdrained _) hn

theorem AccountedSince.execPoll {i : Instr} (h : AccountedSince s u) (hp : i.isPoll = true) (hx : exec i u = .next v) :
    AccountedSince s v := by
  cases i with
  | pollInitRx => exact h.cmdFlushRx.recover_of_flushed.returnNoFrame hx
  | pollWaitForSync => exact h.execPollWaitForSync hx
  | pollWaitForData => exact h.waitForDataStep hx
  | pollReadData => exact h.readExpected.drainLoop _ hx
  | _ => cases hp

/-- The host's push reports a full queue at most (R255). -/
theorem AccountedSince.acceptResult (h : AccountedSince s u) : AccountedSince s (acceptResult u) := by
  unfold Machine.acceptResult pushFrame
  split
  · exact h
  · split
    · exact h.of_same rfl rfl rfl
    · exact h.emit nofun

/-! ### What the books say of the events taken (R215, R216) -/

theorem AccountedSince.eventsTaken_eq (h : AccountedSince s u) : ∃ rest,
    s.schedule.flatten = eventsTaken s u ++ rest ∧ List.Forall₂ Event.restOf u.schedule.flatten rest := by
  obtain ⟨taken, rest, hsched, hrest⟩ := h.rest
  refine ⟨rest, ?_, hrest⟩
  rw [eventsTaken, hrest.length_eq, hsched, List.length_append, Nat.add_sub_cancel, List.take_left]

/-- The bytes that the events taken have brought are no longer to come. -/
theorem AccountedSince.arrivals_eventsTaken (h : AccountedSince s u) :
    (arrivals (eventsTaken s u)).length + (bytesToCome u).length = (bytesToCome s).length := by
  obtain ⟨rest, hsched, hrest⟩ := h.eventsTaken_eq
  rw [bytesToCome_eq_arrivals s, hsched, arrivals_append, List.length_append, bytesToCome_eq_arrivals,
    arrivals_of_restOf hrest]

/-- The time that the events taken took has passed. -/
theorem AccountedSince.elapsed_eventsTaken (h : AccountedSince s u) :
    s.env.now + elapsed (eventsTaken s u) ≤ u.env.now := by
  obtain ⟨rest, hsched, hrest⟩ := h.eventsTaken_eq
  have htime := h.time
  have hcut := elapsed_of_restOf hrest
  rw [hsched, elapsed_append] at htime
  omega

/-- The flag stays low, and no overflow is reported, while the FIFO has room at once for what it held and what has come. -/
theorem AccountedSince.no_overflow (h : AccountedSince s u) (hlow : s.env.overflowFlag = false)
    (hroom : s.env.rxFifo.length + (bytesToCome s).length ≤ Params.fifoCapacity + (bytesToCome u).length) :
    u.env.overflowFlag = false ∧ overflowReports u = overflowReports s := by
  refine h.calm hlow ?_
  rw [← bytesToCome_eq_arrivals, byteStream, List.length_append]
  exact hroom

end

/-! ### InitRx under WB2 (R216, R217) -/

/-- Under WB2 the flush leaves the flag low (R202). -/
theorem cmdFlushRx_overflowFlag {s : State} (h : s.env.flushClearsOverflow = true) :
    (cmdFlushRx s).env.overflowFlag = false := by
  simp [cmdFlushRx, h]

/-- Settles O25: the flag is low after the flush, which empties the FIFO, and what comes after it has room. -/
theorem initRxClearsOverflowUnderWB2 : Obligations.InitRxClearsOverflowUnderWB2 := by
  intro s t hwb2 hroom hx
  have hbooks := (AccountedSince.refl hwb2.flagLeftAlone).cmdFlushRx
  have hlater : AccountedSince (cmdFlushRx s) (recover s) := (AccountedSince.refl hbooks.still).recover_of_flushed
  have hcome := hbooks.arrivals_eventsTaken
  have hempty : (cmdFlushRx s).env.rxFifo.length = 0 := rfl
  have hcap : Params.fifoCapacity = 64 := rfl
  obtain ⟨hlow, -⟩ := hlater.no_overflow (cmdFlushRx_overflowFlag hwb2.1) (by omega)
  cases hx
  exact hlow

/-! ### A step under WB6 (R216, R217, R252, R281) -/

/-- FILL_RATE from the start of the events on (R252). -/
theorem atFillRate.arrivals_le {es : List Event} (h : atFillRate es) : 2 * (arrivals es).length ≤ 25 * elapsed es + 1 :=
  h [] es [] (by simp) (.inl rfl)

/-- Settles O49: the books of the whole step bound its bytes, and with them the books of the wait keep the flag low as well. -/
theorem noOverflowBetweenPollsUnderWB6 : Obligations.NoOverflowBetweenPollsUnderWB6 := by
  rintro s t hwb2 ⟨hrate, hperiod⟩ hreq hstep hfifo hlow
  obtain ⟨i, u, hd, -, hx, rfl⟩ := step_next hstep
  rw [decode_fetchWord_of_no_request hreq] at hd
  cases hd
  have hp := pollInstr_isPoll s.eng.state
  have htaken : s.setRequest none = s := by rw [← hreq]; rfl
  rw [beginStep, if_pos hp, htaken] at hx
  rw [if_pos hp] at hrate hperiod ⊢
  have hwait : AccountedSince s (awaitPoll s) := (AccountedSince.refl hwb2.flagLeftAlone).awaitPoll
  have hpoll : AccountedSince (awaitPoll s) (acceptResult u) :=
    ((AccountedSince.refl hwait.still).execPoll hp hx).acceptResult
  have hall : AccountedSince s (acceptResult u) := (hwait.execPoll hp hx).acceptResult
  have hbytes : (arrivals (eventsTaken s (acceptResult u))).length ≤ 25 := by
    have htime := hall.elapsed_eventsTaken
    have hle := hrate.arrivals_le
    simp only [Params.pollPeriodMs] at hperiod
    omega
  have hcome := hall.arrivals_eventsTaken
  have hcomePoll := hpoll.arrivals_eventsTaken
  have hcap : Params.fifoCapacity = 64 := rfl
  obtain ⟨hlowWait, -⟩ := hwait.no_overflow hlow (by omega)
  obtain ⟨hlowEnd, hreports⟩ := hall.no_overflow hlow (by omega)
  exact ⟨hbytes, hlowWait, hlowEnd, hreports⟩

end Sys2Proof.Machine
end

section
/-! What an abort writes (R236), and the frame queue between the acquisition context and the consumer: its push (R255), its pop (R256)
and the dispatch of what is popped (R257). -/

namespace Sys2Proof.Machine

/-! ### Taking an abort (R230, R236) -/

/-- Settles O44: `raiseAbort` is three updates of the state, of a diagnostic, of `state` and of the result; together they are the
one update of the statement. -/
theorem abortWritesOnlyTheState : Obligations.AbortWritesOnlyTheState := fun _ _ => rfl

/-! ### Push (R255) -/

/-- With room in the queue the frame goes to its end. -/
theorem pushFrame_of_room {s : State} (h : s.plat.queue.length < Params.queueCapacity) (f : RawFrame) :
    pushFrame f s = s.setPlat { s.plat with queue := s.plat.queue ++ [f] } :=
  if_pos h

/-- A full queue takes no frame, and the loss is reported. -/
theorem pushFrame_of_full {s : State} (h : Params.queueCapacity ≤ s.plat.queue.length) (f : RawFrame) :
    pushFrame f s = emit (.kind .queueFull) s :=
  if_neg (Nat.not_lt.2 h)

/-- Settles O50: the two sides of the queue's capacity, which is three frames. -/
theorem fullQueueDropsTheNewFrame : Obligations.FullQueueDropsTheNewFrame :=
  fun _ f => ⟨fun hroom => pushFrame_of_room hroom f, fun hfull => pushFrame_of_full hfull f⟩

/-! ### Pop and dispatch (R256, R257) -/

/-- There is nothing to pop. -/
theorem consume_of_empty {s : State} (h : s.plat.queue = []) (b : Bool) : consume b s = s := by
  rw [consume, h]

/-- The oldest frame goes to a handler that takes it. -/
theorem consume_of_interest {s : State} {f : RawFrame} {rest : List RawFrame} (h : s.plat.queue = f :: rest) :
    consume true s = s.setPlat { s.plat with queue := rest, dispatched := s.plat.dispatched ++ [f] } := by
  simp only [consume, h]
  rfl

/-- The oldest frame leaves the queue although no handler takes it, and is reported. -/
theorem consume_of_no_interest {s : State} {f : RawFrame} {rest : List RawFrame} (h : s.plat.queue = f :: rest) :
    consume false s = emit .unhandled (s.setPlat { s.plat with queue := rest }) := by
  simp only [consume, h]
  rfl

/-- Settles O51: an empty queue, and a frame with and without a handler that takes it. -/
theorem popTakesTheOldestFrame : Obligations.PopTakesTheOldestFrame := by
  refine fun s b => ⟨fun hempty => consume_of_empty hempty b, fun f rest hqueue => ?_⟩
  cases b with
  | true => exact consume_of_interest hqueue
  | false => exact consume_of_no_interest hqueue

end Sys2Proof.Machine
end

section
/-! Setup, which runs before the first poll (R272 to R274): what a missing chip leaves of it, and that the three frequency registers hold
the word nearest to the quotient the source gives. -/

namespace Sys2Proof.Machine

/-! ### A missing chip (R272, R273) -/

/-- Setup leaves what is presented and the state register alone, and the fetch reads nothing else (R140). -/
theorem fetchWord_setup_missing (b : Bool) (s : State) : fetchWord (setup true b s) = fetchWord s := rfl

theorem setup_missing_aborted (b : Bool) (s : State) : (setup true b s).plat.setupAborted = true := rfl

/-- What would have polled before setup is a fault after it (R273; log 18). -/
theorem step_setup_missing {s : State} {i : Instr} (b : Bool) (hd : decode (fetchWord s) = .ok i) (hp : i.isPoll = true) :
    step (setup true b s) = .fault .chipUnresponsive :=
  step_of_aborted ((fetchWord_setup_missing b s).symm ▸ hd) hp (setup_missing_aborted b s)

/-! ### The carrier frequency (R272, R274) -/

/-- The three registers together are the word they were cut from. -/
theorem freqBytes_append (w : BitVec 24) : (freqBytes w).high ++ (freqBytes w).mid ++ (freqBytes w).low = w := by
  apply BitVec.eq_of_toNat_eq
  have := w.isLt
  simp only [freqBytes, append_toNat, extract_toNat]
  omega

/-- A well-formed configuration has a crystal, so the quotient of R274 is one by a positive number. -/
theorem crystal_pos_of_wf {c : Config} (h : c.wf) : 0 < c.crystal := by
  obtain ⟨-, -, -, -, -, hfits⟩ := h
  omega

/-- The quotient of a well-formed configuration fits the word, so no bit of it is cut off (R274). -/
theorem freqWord_toNat {c : Config} (h : c.wf) :
    (freqWord c).toNat = (2 * c.carrier * 2 ^ 16 + c.crystal) / (2 * c.crystal) := by
  have hpos := crystal_pos_of_wf h
  obtain ⟨-, -, -, -, -, hfits⟩ := h
  have hlt : (2 * c.carrier * 2 ^ 16 + c.crystal) / (2 * c.crystal) < 2 ^ 24 :=
    (Nat.div_lt_iff_lt_mul (by omega)).2 hfits
  rw [freqWord, BitVec.toNat_ofNat, Nat.mod_eq_of_lt hlt]

/-- Half a divisor added before the division makes the quotient the nearest number, a half rounded up (log 34). -/
theorem roundedDiv_nearest (n : Nat) {d : Nat} (hd : 0 < d) :
    2 * ((2 * n + d) / (2 * d)) * d ≤ 2 * n + d ∧ 2 * n < 2 * ((2 * n + d) / (2 * d)) * d + d := by
  have hle := Nat.mul_div_le (2 * n + d) (2 * d)
  have hlt := Nat.lt_mul_div_succ (2 * n + d) (show 0 < 2 * d by omega)
  rw [Nat.mul_add] at hlt
  rw [Nat.mul_right_comm 2 _ d]
  omega

/-- The word is nearest to carrier * 2^16 / crystal (R274). -/
theorem freqWord_nearest {c : Config} (h : c.wf) :
    2 * (freqWord c).toNat * c.crystal ≤ 2 * c.carrier * 2 ^ 16 + c.crystal ∧
    2 * c.carrier * 2 ^ 16 < 2 * (freqWord c).toNat * c.crystal + c.crystal := by
  rw [freqWord_toNat h, Nat.mul_assoc 2 c.carrier]
  exact roundedDiv_nearest _ (crystal_pos_of_wf h)

/-- With a chip, setup writes the frequency registers, whether or not the readback of the RF table disagrees. -/
theorem setup_present_freq (b : Bool) (s : State) : (setup false b s).env.freq = freqBytes (freqWord s.cfg) := by
  cases b <;> rfl

/-- Settles O55: the poll of a missing chip is a fault by `step_setup_missing`, be it presented or selected by the state register. -/
theorem setupSetsTheFrequencyUnlessTheChipIsMissing : Obligations.SetupSetsTheFrequencyUnlessTheChipIsMissing := by
  intro s b
  refine ⟨fun hreq => ?_, fun _ => step_setup_missing b, rfl, fun t ht => ⟨?_, fun hwf freq hfreq => ?_⟩⟩
  · exact step_setup_missing b (decode_fetchWord_of_no_request hreq) (pollInstr_isPoll _)
  · rw [ht]
    cases b <;> rfl
  · rw [ht, setup_present_freq, freqBytes_append] at hfreq
    rw [hfreq]
    exact freqWord_nearest hwf

end Sys2Proof.Machine
end
